-- ==== Sys2Proof/Word.lean ====
section
/-! DEFINITION. The word types of usbdisp_engine (00_scope.md R8): bytes, 16-bit wire integers and pixels. -/

namespace Sys2Proof

/-- One byte of the wire or of the ring buffer's data part (R34). -/
abbrev Byte := BitVec 8

/-- An RGB565 pixel, an opaque 16-bit value (R8, R15 d). -/
abbrev Pixel := BitVec 16

/-- A 16-bit unsigned wire integer: a coordinate or a size (R8, R110). -/
abbrev Coord := BitVec 16

end Sys2Proof
end

