-- ==== Sys2Proof/Config.lean ====
section
/-! DEFINITION. The parameters of 00_scope.md R7, those a step takes as an argument among them, the diagnostic codes
of 60_exceptions.md R301, and the free values (opaque constants, of which nothing can be proved). -/

namespace Sys2Proof.Config

/-- `FIFO_CAPACITY` (R7). -/
abbrev fifoCapacity : Nat := 32768

/-- `HDR_START_BIT` (R7). -/
abbrev hdrStartBit : Nat := 7
/-- `HDR_CLEAR_DIRTY_BIT` (R7). -/
abbrev hdrClearDirtyBit : Nat := 6
/-- `RLE_COMMON_BIT` (R7). -/
abbrev rleCommonBit : Nat := 7

/-- The two settings of `CONT_MATCH` (R7, R113). -/
inductive ContMatch where
  | opcodeField
  | opcodeFieldNoStart
  deriving DecidableEq, Repr

/-- The parameters of R7 that the document leaves to the implementation and whose rules the block follows: arguments of
the step (R38; 93_implementation_defined.md I5, I11, I12). -/
structure Params where
  /-- `OPC_NOP`. -/
  opcNop : BitVec 6
  /-- `OPC_FILL`. -/
  opcFill : BitVec 6
  /-- `OPC_RECT`. -/
  opcRect : BitVec 6
  /-- `OPC_COPY_AREA`. -/
  opcCopyArea : BitVec 6
  /-- `OPC_BITBLT`. -/
  opcBitblt : BitVec 6
  /-- `OPC_BITBLT_RLE`. -/
  opcBitbltRle : BitVec 6
  /-- `CONT_MATCH`. -/
  contMatch : ContMatch
  /-- `NOP_REPORTS`. -/
  nopReports : Bool
  deriving DecidableEq, Repr

/-- The defaults of R7. -/
def Params.defaults : Params where
  opcNop := 0x00#6
  opcFill := 0x01#6
  opcRect := 0x02#6
  opcCopyArea := 0x03#6
  opcBitblt := 0x04#6
  opcBitbltRle := 0x05#6
  contMatch := .opcodeField
  nopReports := false

/-- The opcodes that take argument bytes (R104). -/
def Params.withArguments (p : Params) : List (BitVec 6) :=
  [p.opcFill, p.opcRect, p.opcCopyArea, p.opcBitblt, p.opcBitbltRle]

/-- The six opcodes (R103). -/
def Params.opcodes (p : Params) : List (BitVec 6) := p.opcNop :: p.withArguments

/-- The six opcodes are six different values. DEDUCED (log 20): R103 lists six names for six values, and the rules do
not say it of other settings. No step asks for it; statements do. -/
def Params.valid (p : Params) : Bool := decide p.opcodes.Nodup

/-- `COPY_BUF_PIXELS` (R7): OPEN, so nothing is known of it. -/
opaque copyBufPixels : Nat

/-- `MAX_PACKET` (R7): OPEN, and no rule depends on it. -/
opaque maxPacket : Nat

/-- `PANEL_W` (R7): OPEN, and no rule depends on it. -/
opaque panelW : Nat

/-- `PANEL_H` (R7): OPEN, and no rule depends on it. -/
opaque panelH : Nat

/-- `STATUS_PACKET_TYPE` (R7, R120). -/
abbrev statusPacketType : Byte := 0x00#8
/-- `STATUS_DIRTY_BIT` (R7, R120). -/
abbrev statusDirtyBit : Nat := 7
/-- `TOUCH_NO_TOUCH` (R7, R120, R289). -/
abbrev touchNoTouch : Byte := 0x00#8
/-- `STATUS_RESERVED` (R7, R120): each of the two reserved bytes. -/
abbrev statusReserved : Byte := 0x00#8

/-- `DIAG_FRAMING` (R301). -/
abbrev diagFraming : Byte := 0x01#8
/-- `DIAG_UNKNOWN_OPCODE` (R301). -/
abbrev diagUnknownOpcode : Byte := 0x02#8
/-- `DIAG_SYNC_ERROR` (R301). -/
abbrev diagSyncError : Byte := 0x03#8
/-- `DIAG_FIFO_OVERFLOW` (R301). -/
abbrev diagFifoOverflow : Byte := 0x04#8
/-- `DIAG_COPY_OOM` (R301). -/
abbrev diagCopyOom : Byte := 0x05#8

/-- The k-th pixel that `Sink.ReadWindow` returns to the block: a free input of the step (R216, I16). -/
opaque sinkPixel : Nat → Pixel

end Sys2Proof.Config
end

