-- ==== Sys2Proof/Syntax.lean ====
section
/-! DEFINITION. The instruction set: one constructor per row of spec/opcode_table.json.
`clear` is the CLEAR_DIRTY bit and `start` the FRAME_START bit of the byte (30_encoding.md R100). -/

namespace Sys2Proof

inductive Instr where
  /-- NOP (R109, R241). -/
  | nop (clear : Bool)
  /-- FILL (R105, R242). -/
  | fill (clear : Bool) (color : Pixel)
  /-- RECT (R106, R243). -/
  | rect (clear : Bool) (left top right bottom : Coord) (color : Pixel)
  /-- COPY_AREA (R107, R245). -/
  | copyArea (clear : Bool) (sx sy dx dy width height : Coord)
  /-- BITBLT, its fixed header (R108, R249); the payload follows as bytes of the stream. -/
  | bitblt (clear : Bool) (x y width height : Coord)
  /-- BITBLT_RLE, its fixed header (R108, R251); the payload follows as bytes of the stream. -/
  | bitbltRle (clear : Bool) (x y width height : Coord)
  /-- UNKNOWN_OPCODE, row 0x86/0xBE: opcodes 0x06 and 0x07 (R127, R150). -/
  | unknownOpcode06 (clear : Bool) (opcode : BitVec 6)
  /-- UNKNOWN_OPCODE, row 0x88/0xB8: opcodes 0x08 to 0x0F (R127, R150). -/
  | unknownOpcode08 (clear : Bool) (opcode : BitVec 6)
  /-- UNKNOWN_OPCODE, row 0x90/0xB0: opcodes 0x10 to 0x1F (R127, R150). -/
  | unknownOpcode10 (clear : Bool) (opcode : BitVec 6)
  /-- UNKNOWN_OPCODE, row 0xA0/0xA0: opcodes 0x20 to 0x3F (R127, R150). -/
  | unknownOpcode20 (clear : Bool) (opcode : BitVec 6)
  /-- NON_FRAME: a byte with FRAME_START = 0 met in SCAN (R123, R144). -/
  | nonFrame (data : Byte)
  /-- CONT_BITBLT: a matching continuation byte of a BITBLT (R113, R155). -/
  | contBitblt (start clear : Bool)
  /-- CONT_BITBLT_RLE: a matching continuation byte of a BITBLT_RLE (R113, R155). -/
  | contBitbltRle (start clear : Bool)
  /-- RLE_LITERAL: the header byte of a literal block (R116, R117, R186). -/
  | rleLiteral (ignored : BitVec 4) (size : BitVec 3)
  /-- RLE_COMMON: the header byte of a common block (R116, R118, R186). -/
  | rleCommon (ignored : BitVec 4) (size : BitVec 3)
  /-- STATUS: the block sends its status packet (R120, R282). -/
  | status
  deriving DecidableEq, Repr

end Sys2Proof
end

