-- ==== Sys2Proof/WellFormed.lean ====
section
/-! DEFINITION. Which terms of `Instr` stand for an instruction of the opcode map (30_encoding.md R127). -/

namespace Sys2Proof

/-- Well-formedness under the parameters `p`: an unknown opcode is none of the six and lies in its row's range, a
non-frame byte has bit 7 = 0 (R127), and a continuation byte carries FRAME_START only where R113 lets it. The first
unknown row has the opcodes below 8; under the defaults those left to it are the table's 6 and 7. -/
def Instr.wellFormed (p : Config.Params) : Instr → Bool
  | .nop _ => true
  | .fill _ _ => true
  | .rect _ _ _ _ _ _ => true
  | .copyArea _ _ _ _ _ _ _ => true
  | .bitblt _ _ _ _ _ => true
  | .bitbltRle _ _ _ _ _ => true
  | .unknownOpcode06 _ op => op &&& 0x38#6 == 0x00#6 && !p.opcodes.contains op
  | .unknownOpcode08 _ op => op &&& 0x38#6 == 0x08#6 && !p.opcodes.contains op
  | .unknownOpcode10 _ op => op &&& 0x30#6 == 0x10#6 && !p.opcodes.contains op
  | .unknownOpcode20 _ op => op &&& 0x20#6 == 0x20#6 && !p.opcodes.contains op
  | .nonFrame d => !d.getLsbD Config.hdrStartBit
  | .contBitblt start _ => p.contMatch == .opcodeField || !start
  | .contBitbltRle start _ => p.contMatch == .opcodeField || !start
  | .rleLiteral _ _ => true
  | .rleCommon _ _ => true
  | .status => true

end Sys2Proof
end

