-- ==== Sys2Proof/Decode.lean ====
section
/-! DEFINITION. The decoder and the encoder (30_encoding.md), with the byte-order and bit-field helpers they share
with the machine. How a byte is read depends on the framer's state (R121), which is the decoder's context. -/

namespace Sys2Proof

/-! ## Bit fields and byte order -/

/-- `le16(b0, b1)` of R10: the first byte is the least significant (R70). -/
def le16 (b0 b1 : Byte) : BitVec 16 := (b1.setWidth 16 <<< 8) ||| b0.setWidth 16

/-- The byte of a 16-bit value that goes first on the wire (R70). -/
def loByte (v : BitVec 16) : Byte := v.setWidth 8

/-- The byte of a 16-bit value that goes second on the wire (R70). -/
def hiByte (v : BitVec 16) : Byte := (v >>> 8).setWidth 8

/-- A 16-bit field as its two wire bytes (R70). -/
def fieldBytes (v : BitVec 16) : List Byte := [loByte v, hiByte v]

/-- Bit FRAME_START of a header byte (R100). -/
def frameStart (h : Byte) : Bool := h.getLsbD Config.hdrStartBit

/-- Bit CLEAR_DIRTY of a header byte (R100). -/
def clearDirty (h : Byte) : Bool := h.getLsbD Config.hdrClearDirtyBit

/-- The opcode field, bits 5:0, of a header or continuation byte (R100). -/
def opcodeOf (h : Byte) : BitVec 6 := h.setWidth 6

/-- The byte with the given FRAME_START, CLEAR_DIRTY and opcode fields (R100). -/
def mkHeader (start clear : Bool) (op : BitVec 6) : Byte :=
  (BitVec.ofBool start ++ BitVec.ofBool clear ++ op : BitVec 8)

/-- The RLE block header byte with the given mode, ignored bits and size selector (R116). -/
def mkRleHeader (common : Bool) (ignored : BitVec 4) (size : BitVec 3) : Byte :=
  (BitVec.ofBool common ++ ignored ++ size : BitVec 8)

/-- `need(opcode)` of R104 under the parameters `p`: how many argument bytes follow the header byte. -/
def need (p : Config.Params) (op : BitVec 6) : Nat :=
  if op = p.opcNop then 0
  else if op = p.opcFill then 2
  else if op = p.opcRect then 10
  else if op = p.opcCopyArea then 12
  else if op = p.opcBitblt then 8
  else if op = p.opcBitbltRle then 8
  else 0

/-- The k-th 16-bit field of a fixed header, from its argument bytes (R110). -/
def argAt (as : List Byte) (k : Nat) : BitVec 16 := le16 (as.getD (2 * k) 0) (as.getD (2 * k + 1) 0)

/-- `ContMatch(d, h)` of R155: whether the first byte `d` of a packet continues the BitBlt with header byte `h`. -/
def contMatches (m : Config.ContMatch) (d h : Byte) : Bool :=
  match m with
  | .opcodeField => opcodeOf d == opcodeOf h
  | .opcodeFieldNoStart => opcodeOf d == opcodeOf h && !frameStart d

/-! ## The decoder -/

/-- What decides how bytes are read (R121). -/
inductive Ctx where
  /-- The header position: the framer is in SCAN, or is completing the frame it began there (R101). -/
  | scan
  /-- The first byte of a packet while the BitBlt with this header byte is in PAYLOAD (R113). -/
  | payloadStart (hdr : Byte)
  /-- A payload byte of a BITBLT_RLE at a block boundary (R185). -/
  | rleBoundary
  /-- The host's side of the interrupt-IN endpoint (R120). -/
  | statusIn
  deriving DecidableEq, Repr

/-- Why bytes are not a whole instruction. -/
inductive DecodeError where
  /-- There is no byte. -/
  | empty
  /-- The fixed header has only `have_` of its `need_` argument bytes (R147). -/
  | incomplete (have_ need_ : Nat)
  /-- The packet's first byte does not continue the BitBlt with header byte `hdr` (R156). -/
  | contMismatch (hdr found : Byte)
  /-- The bytes are no status packet of this block (R120). -/
  | notStatus
  deriving DecidableEq, Repr

/-- The row of an opcode that is none of the six (R127). Under the defaults the opcodes below 8 that come here are 6
and 7, the first row's. -/
def unknownRow (clear : Bool) (op : BitVec 6) : Instr :=
  if op.getLsbD 5 then .unknownOpcode20 clear op
  else if op.getLsbD 4 then .unknownOpcode10 clear op
  else if op.getLsbD 3 then .unknownOpcode08 clear op
  else .unknownOpcode06 clear op

/-- The command of an opcode field with its argument bytes (R103 to R110). -/
def frameOf (p : Config.Params) (clear : Bool) (op : BitVec 6) (as : List Byte) : Instr :=
  if op = p.opcNop then .nop clear
  else if op = p.opcFill then .fill clear (argAt as 0)
  else if op = p.opcRect then .rect clear (argAt as 0) (argAt as 1) (argAt as 2) (argAt as 3) (argAt as 4)
  else if op = p.opcCopyArea then
    .copyArea clear (argAt as 0) (argAt as 1) (argAt as 2) (argAt as 3) (argAt as 4) (argAt as 5)
  else if op = p.opcBitblt then .bitblt clear (argAt as 0) (argAt as 1) (argAt as 2) (argAt as 3)
  else if op = p.opcBitbltRle then .bitbltRle clear (argAt as 0) (argAt as 1) (argAt as 2) (argAt as 3)
  else unknownRow clear op

/-- A continuation byte of the BitBlt with header byte `hdr`, or `none` where it does not match (R113, R127). -/
def decodeCont (p : Config.Params) (hdr d : Byte) : Option Instr :=
  if contMatches p.contMatch d hdr then
    if opcodeOf d = p.opcBitblt then some (.contBitblt (frameStart d) (clearDirty d))
    else if opcodeOf d = p.opcBitbltRle then some (.contBitbltRle (frameStart d) (clearDirty d))
    else none
  else none

/-- An RLE block header byte: bit 7 the mode, bits 6:3 ignored, bits 2:0 the size selector (R116). -/
def decodeRle (h : Byte) : Instr :=
  if h.getLsbD Config.rleCommonBit then .rleCommon ((h >>> 3).setWidth 4) (h.setWidth 3)
  else .rleLiteral ((h >>> 3).setWidth 4) (h.setWidth 3)

/-- Whether five bytes are a packet the block can send (R120). -/
def isStatus (b0 b1 b2 b3 b4 : Byte) : Bool :=
  b0 == Config.statusPacketType && (b1.setWidth 7 : BitVec 7) == 0#7 && b2 == Config.touchNoTouch
    && b3 == Config.statusReserved && b4 == Config.statusReserved

/-- The decoder under the parameters `p`: the first instruction of the bytes and the bytes after it. Total on any
bytes. -/
def decode (p : Config.Params) (c : Ctx) (bs : List Byte) : Except DecodeError (Instr × List Byte) :=
  match c, bs with
  | _, [] => .error .empty
  | .scan, h :: rest =>
    if frameStart h then
      if rest.length < need p (opcodeOf h) then .error (.incomplete rest.length (need p (opcodeOf h)))
      else .ok (frameOf p (clearDirty h) (opcodeOf h) rest, rest.drop (need p (opcodeOf h)))
    else .ok (.nonFrame h, rest)
  | .payloadStart hdr, d :: rest =>
    match decodeCont p hdr d with
    | some i => .ok (i, rest)
    | none => .error (.contMismatch hdr d)
  | .rleBoundary, h :: rest => .ok (decodeRle h, rest)
  | .statusIn, b0 :: b1 :: b2 :: b3 :: b4 :: rest =>
    if isStatus b0 b1 b2 b3 b4 then .ok (.status, rest) else .error .notStatus
  | .statusIn, _ :: _ => .error .notStatus

/-- The contexts in which an instruction's bytes are read as that instruction. -/
def Instr.readIn (p : Config.Params) (i : Instr) (c : Ctx) : Bool :=
  match i, c with
  | .nop _, .scan => true
  | .fill _ _, .scan => true
  | .rect _ _ _ _ _ _, .scan => true
  | .copyArea _ _ _ _ _ _ _, .scan => true
  | .bitblt _ _ _ _ _, .scan => true
  | .bitbltRle _ _ _ _ _, .scan => true
  | .unknownOpcode06 _ _, .scan => true
  | .unknownOpcode08 _ _, .scan => true
  | .unknownOpcode10 _ _, .scan => true
  | .unknownOpcode20 _ _, .scan => true
  | .nonFrame _, .scan => true
  | .contBitblt _ _, .payloadStart hdr => opcodeOf hdr == p.opcBitblt
  | .contBitbltRle _ _, .payloadStart hdr => opcodeOf hdr == p.opcBitbltRle
  | .rleLiteral _ _, .rleBoundary => true
  | .rleCommon _ _, .rleBoundary => true
  | .status, .statusIn => true
  | _, _ => false

/-! ## The encoder -/

/-- The wire bytes of an instruction under the parameters `p` (R100 to R120). A STATUS packet's DIRTY bit is no operand; it is written 0 here
and filled in from `st.dirty` when the packet is built (R282). -/
def encode (p : Config.Params) (i : Instr) : List Byte :=
  match i with
  | .nop c => [mkHeader true c p.opcNop]
  | .fill c color => mkHeader true c p.opcFill :: fieldBytes color
  | .rect c l t r b color =>
    mkHeader true c p.opcRect
      :: (fieldBytes l ++ fieldBytes t ++ fieldBytes r ++ fieldBytes b ++ fieldBytes color)
  | .copyArea c sx sy dx dy w h =>
    mkHeader true c p.opcCopyArea
      :: (fieldBytes sx ++ fieldBytes sy ++ fieldBytes dx ++ fieldBytes dy ++ fieldBytes w ++ fieldBytes h)
  | .bitblt c x y w h =>
    mkHeader true c p.opcBitblt :: (fieldBytes x ++ fieldBytes y ++ fieldBytes w ++ fieldBytes h)
  | .bitbltRle c x y w h =>
    mkHeader true c p.opcBitbltRle :: (fieldBytes x ++ fieldBytes y ++ fieldBytes w ++ fieldBytes h)
  | .unknownOpcode06 c op => [mkHeader true c op]
  | .unknownOpcode08 c op => [mkHeader true c op]
  | .unknownOpcode10 c op => [mkHeader true c op]
  | .unknownOpcode20 c op => [mkHeader true c op]
  | .nonFrame d => [d]
  | .contBitblt s c => [mkHeader s c p.opcBitblt]
  | .contBitbltRle s c => [mkHeader s c p.opcBitbltRle]
  | .rleLiteral ig s => [mkRleHeader false ig s]
  | .rleCommon ig s => [mkRleHeader true ig s]
  | .status =>
    [Config.statusPacketType, 0x00#8, Config.touchNoTouch, Config.statusReserved, Config.statusReserved]

/-! ## Words of the opcode table -/

/-- The 13 bytes (the longest fixed header, COPY_AREA) of an instruction whose low `nbits` bits are `w` and whose
other bits are 0, the first byte the least significant. -/
def wordBytes (nbits w : Nat) : List Byte :=
  (List.range 13).map fun k => BitVec.ofNat 8 ((w % 2 ^ nbits) / 256 ^ k)

/-- The instruction the decoder reads under the default parameters in the header position, which is where the machine stands after reset: a row
met only in another context (a continuation byte, an RLE block header, the status packet) shares its words with a
row of this one, and this one is given (R121). -/
def decodeTableWord (nbits w : Nat) : Option Instr :=
  match decode Config.Params.defaults .scan (wordBytes nbits w) with
  | .ok (i, _) => some i
  | .error _ => none

end Sys2Proof
end

