-- ==== Sys2Proof/Machine/State.lean ====
section
/-! DEFINITION. The machine's state, as 10_state.md gives it, its reset, and the reasons a step can stop. -/

namespace Sys2Proof.Machine

/-- `st.fsm`, the framer state (R22). -/
inductive Fsm where
  | scan
  | discard
  | header
  | payload
  deriving DecidableEq, Repr

/-- One ring buffer entry: a byte and its start-of-packet tag (R34). -/
structure FifoEntry where
  data : Byte
  sop : Bool
  deriving DecidableEq, Repr

/-- The ring buffer storage: (slot, entry) pairs with slots strictly rising. A slot not listed has never been
written and has no value (R34, I20). -/
abbrev Memory := List (Nat × FifoEntry)

/-- The 5-byte status packet (R120). -/
structure StatusPacket where
  packetType : Byte
  displayStatus : Byte
  touchStatus : Byte
  reserved0 : Byte
  reserved1 : Byte
  deriving DecidableEq, Repr

/-- One transaction of an output port (R40): `sink` (R212 to R216), `status` (R42) or `diag` (R44). -/
inductive Transaction where
  /-- `Sink.FillScreen` (R212). -/
  | fillScreen (color : Pixel)
  /-- `Sink.FillRect` (R213). -/
  | fillRect (left top right bottom : Coord) (color : Pixel)
  /-- `Sink.SetWindow` (R214). -/
  | setWindow (x y width height : Coord)
  /-- `Sink.PushPixel` (R215). -/
  | pushPixel (pixel : Pixel)
  /-- `Sink.ReadWindow` with the pixels the sink answered (R216). -/
  | readWindow (x y width height : Coord) (answer : List Pixel)
  /-- `StatusOut` (R42, R284); whether the transport accepted the packet is not seen by the block. -/
  | statusOut (packet : StatusPacket)
  /-- `Diag` (R44, R301). -/
  | diag (code : Byte) (info : List Byte)
  deriving DecidableEq, Repr

/-- One agent's step still to be taken: the interleaving of the agents and the packets of the host are the
environment's choice (R38, R80). -/
inductive Move where
  /-- The Producer takes one `Store` transaction of port `in` (R41). -/
  | store (data : Byte) (sop : Bool)
  /-- The Engine takes a step (R140). -/
  | engine
  /-- The environment asserts `Reset` (R45). -/
  | reset
  deriving DecidableEq, Repr

/-- The state of the block (R50) and, last, the model's own four fields. -/
structure State where
  /-- `st.fsm` (R22). -/
  fsm : Fsm
  /-- `st.hdr` (R23). -/
  hdr : Byte
  /-- `st.args[0..11]` (R24). -/
  args : Vector Byte 12
  /-- `st.argcnt` (R24). -/
  argcnt : BitVec 4
  /-- `st.remaining` (R25). -/
  remaining : BitVec 33
  /-- `st.blk_rem` (R26). -/
  blkRem : BitVec 5
  /-- `st.blk_pos` (R26). -/
  blkPos : BitVec 5
  /-- `st.blk_common` (R27). -/
  blkCommon : Bool
  /-- `st.color_lo` (R28). -/
  colorLo : Byte
  /-- `st.px_half` (R29). -/
  pxHalf : Bool
  /-- `st.px_lo` (R29). -/
  pxLo : Byte
  /-- `st.copybuf` (R30): slots 0, 1, ... up to the last one ever written. -/
  copybuf : List Pixel
  /-- `st.dirty` (R31). -/
  dirty : Bool
  /-- `st.boot_pending` (R32). -/
  bootPending : Bool
  /-- `st.fifo_mem` (R34). -/
  fifoMem : Memory
  /-- `st.fifo_rd` (R35). -/
  fifoRd : BitVec 15
  /-- `st.fifo_wr` (R35). -/
  fifoWr : BitVec 15
  /-- `st.fifo_count` (R35). -/
  fifoCount : BitVec 16
  /-- The model's own: the transactions issued so far on the output ports, oldest first (R85). -/
  out : List Transaction
  /-- The model's own: the moves of the agents to come; when it is empty the Engine moves. -/
  sched : List Move
  /-- The model's own: how many free pixels `Sink.ReadWindow` has returned so far (R216). -/
  freeIx : Nat
  /-- The model's own: the parameters `OPC_*`, `CONT_MATCH` and `NOP_REPORTS` the step takes (R7, R38). No step
  changes them. -/
  params : Config.Params
  deriving DecidableEq, Repr

/-- The reasons a step stops. The hardware never stops (R300): each is raised only in a state that no run from reset
reaches, so each is safe. -/
inductive Fault where
  /-- A pop or peek where R74 and R75 define none: the ring buffer is empty, or its head slot was never written
  (R76, I20). Raised by every operation that pops, and by a store that would lose such an entry. Safe. -/
  | noEntry
  /-- HEADER with no argument byte still due (R147's condition fails). Raised by the fetch. Safe. -/
  | headerOverrun
  /-- A payload byte in PAYLOAD with no load left (R153, R194). Raised by the fetch. Safe. -/
  | payloadOverrun
  deriving DecidableEq, Repr

/-- The reasons a step is refused. -/
inductive Refusal where
  /-- The instruction has no meaning in this model. Raised by no arm of `exec`: every instruction has one. Safe. -/
  | notModelled (mnemonic : String)
  deriving DecidableEq, Repr

/-- The machine right after reset (R50, R350). DESIGN CHOICE (log 3): `hdr`, `args`, `colorLo` and `pxLo` are 0 and
no slot of `copybuf` is written, where R50 says "unspecified". DESIGN CHOICE (log 4): no slot of `fifoMem` has a
value. DESIGN CHOICE (log 1, 5, 6): the model's own fields are empty, and
the parameters have their defaults (R7, log 9). -/
def State.reset : State where
  fsm := .scan
  hdr := 0#8
  args := Vector.replicate 12 0#8
  argcnt := 0#4
  remaining := 0#33
  blkRem := 0#5
  blkPos := 0#5
  blkCommon := false
  colorLo := 0#8
  pxHalf := false
  pxLo := 0#8
  copybuf := []
  dirty := true
  bootPending := true
  fifoMem := []
  fifoRd := 0#15
  fifoWr := 0#15
  fifoCount := 0#16
  out := []
  sched := []
  freeIx := 0
  params := .defaults

end Sys2Proof.Machine
end

