-- ==== Sys2Proof/Machine/Flags.lean ====
section
/-! DEFINITION. Everything computed for the one flag of the block, DIRTY (44_status.md R280 to R282). -/

namespace Sys2Proof.Machine

/-- DIRTY after a completion of the command with header byte `hdr` (R258, R281): CLEAR_DIRTY clears it, nothing
sets it. -/
def dirtyAfter (hdr : Byte) (dirty : Bool) : Bool := if clearDirty hdr then false else dirty

/-- The displayStatus byte: DIRTY at its bit, every other bit 0 (R120, R282). -/
def displayStatus (dirty : Bool) : Byte := (BitVec.ofBool dirty).setWidth 8 <<< Config.statusDirtyBit

/-- `BuildStatus` (R282). -/
def buildStatus (dirty : Bool) : StatusPacket where
  packetType := Config.statusPacketType
  displayStatus := displayStatus dirty
  touchStatus := Config.touchNoTouch
  reserved0 := Config.statusReserved
  reserved1 := Config.statusReserved

/-- The packet's bytes in wire order (R120). -/
def StatusPacket.bytes (p : StatusPacket) : List Byte :=
  [p.packetType, p.displayStatus, p.touchStatus, p.reserved0, p.reserved1]

end Sys2Proof.Machine
end

