-- ==== Sys2Proof/Machine/Operands.lean ====
section
/-! DEFINITION. The frame registers `st.hdr`, `st.args`, `st.argcnt` and the operand bytes they hold
(10_state.md R23, R24; 40_framer.md R143, R147). -/

namespace Sys2Proof.Machine

/-- The argument registers with their first bytes replaced (R24). -/
def loadArgs (v : Vector Byte 12) (as : List Byte) : Vector Byte 12 :=
  Vector.ofFn fun i => (as[i.val]?).getD v[i]

/-- The frame registers as a whole frame leaves them: its header byte, its argument bytes in arrival order, and
their number (R143, R147). Over registers that already hold the frame's first bytes it changes only what the last
byte changes (log 11). -/
def State.latchFrame (s : State) (frame : List Byte) : State :=
  match frame with
  | [] => s
  | h :: as => { s with hdr := h, args := loadArgs s.args as, argcnt := BitVec.ofNat 4 as.length }

/-- The bytes of the current frame received so far, and then `d` (R147). -/
def State.frameBytes (s : State) (d : Byte) : List Byte :=
  s.hdr :: (s.args.toList.take s.argcnt.toNat ++ [d])

/-- The first half of a ScanStep that accepts a header byte: `st.hdr` and `st.argcnt` (R143). -/
def State.startFrame (s : State) (h : Byte) : State := { s with hdr := h, argcnt := 0#4 }

/-- The byte goes to the next argument register (R147). -/
def State.pushArg (s : State) (d : Byte) : State :=
  { s with args := s.args.setIfInBounds s.argcnt.toNat d, argcnt := s.argcnt + 1#4 }

end Sys2Proof.Machine
end

