-- ==== Sys2Proof/Machine/Ops.lean ====
section
/-! DEFINITION. The named operations every meaning is written over: the ring buffer (20_memory.md), the output ports
(10_state.md R40), the errors (60_exceptions.md), completion and abort (43_commands.md R258, 60_exceptions.md R310),
the pixel sequencer (42_pixel_sequencer.md) and the copy (43_commands.md R245 to R247). -/

namespace Sys2Proof.Machine

/-- What a meaning answers. -/
abbrev Result := Host.Outcome State Fault Refusal

/-! ## Ring buffer storage -/

/-- The entry of slot `a`, or `none` where no store has written it (R34). -/
def Memory.read (m : Memory) (a : Nat) : Option FifoEntry :=
  match m with
  | [] => none
  | (k, e) :: rest => if k = a then some e else Memory.read rest a

/-- Slot `a` takes the entry `e`; the list stays in slot order. -/
def Memory.write (m : Memory) (a : Nat) (e : FifoEntry) : Memory :=
  match m with
  | [] => [(a, e)]
  | (k, f) :: rest =>
    if a < k then (a, e) :: (k, f) :: rest
    else if a = k then (a, e) :: rest
    else (k, f) :: Memory.write rest a e

/-- The canonical form: slots strictly rising, each one of the 32768 (R34). -/
def Memory.wf (m : Memory) : Bool :=
  match m with
  | [] => true
  | (k, _) :: rest =>
    decide (k < Config.fifoCapacity) && rest.all (fun p => decide (k < p.1)) && Memory.wf rest

/-! ## Ring buffer operations -/

/-- `FifoPeek` (R74), `none` where it is not defined. -/
def State.fifoHead? (s : State) : Option FifoEntry :=
  if s.fifoCount = 0#16 then none else s.fifoMem.read s.fifoRd.toNat

/-- The state `FifoPop` leaves (R75); the popped slot keeps its contents. -/
def State.popped (s : State) : State :=
  { s with fifoRd := s.fifoRd + 1#15, fifoCount := s.fifoCount - 1#16 }

/-- `FifoPop` (R75), then `k` on the entry and the state after it. -/
def withPop (s : State) (k : FifoEntry → State → Result) : Result :=
  match s.fifoHead? with
  | none => .fault .noEntry
  | some e => k e s.popped

/-- The i-th occupied entry from the oldest (R35). -/
def State.fifoSlot (s : State) (i : Nat) : Option FifoEntry :=
  s.fifoMem.read (s.fifoRd + BitVec.ofNat 15 i).toNat

/-- The occupied entries, oldest first (R35). -/
def State.fifoContents (s : State) : List (Option FifoEntry) :=
  (List.range s.fifoCount.toNat).map s.fifoSlot

/-! ## Output ports -/

/-- One transaction of an output port is issued (R85). -/
def State.emit (s : State) (t : Transaction) : State := { s with out := s.out ++ [t] }

/-- Transactions of output ports are issued in order (R85). -/
def State.emits (s : State) (ts : List Transaction) : State := { s with out := s.out ++ ts }

/-- `raise Diag(code, info)` (R301): recorded on port diag, nothing else changes. -/
def State.raiseDiag (s : State) (code : Byte) (info : List Byte) : State := s.emit (.diag code info)

/-- `SendStatus` (R282, R284): the packet is built from DIRTY and offered once; the answer is not looked at. -/
def State.sendStatus (s : State) : State := s.emit (.statusOut (buildStatus s.dirty))

/-! ## Errors: what stands here for taking an exception, and for the return from one -/

/-- Taking an error (R300, R311): nothing is saved and no mode changes; the event is recorded and the framer goes to
the state the error's rule names. There is no return (R312): the recovery is complete at the end of the step. -/
def State.takeError (s : State) (code : Byte) (info : List Byte) (target : Fsm) : State :=
  { s.raiseDiag code info with fsm := target }

/-- `Abort` (R310): the load is dropped and the framer goes to SCAN; no status packet, DIRTY unchanged. -/
def State.abort (s : State) : State := { s with remaining := 0#33, fsm := .scan }

/-- The synchronization error on a packet's first byte `d` (R156, R304): nothing is popped. -/
def State.syncError (s : State) (d : Byte) : State :=
  (s.raiseDiag Config.diagSyncError [(opcodeOf s.hdr).setWidth 8, d]).abort

/-- The refusal of an unknown header byte `h` already latched (R150, R303). -/
def State.unknownOpcode (s : State) (h : Byte) : State :=
  s.takeError Config.diagUnknownOpcode [h] .discard

/-! ## Completion -/

/-- `Complete` (R258): DIRTY, then the status packet, then SCAN. -/
def State.complete (s : State) : State :=
  { State.sendStatus { s with dirty := dirtyAfter s.hdr s.dirty } with fsm := .scan }

/-! ## Pixel sequencer -/

/-- `PixelByte` (R211). -/
def State.pixelByte (s : State) (d : Byte) : State :=
  if s.pxHalf then { s.emit (.pushPixel (le16 s.pxLo d)) with pxHalf := false }
  else { s with pxLo := d, pxHalf := true }

/-- `n` pushes of one pixel (R189, R215). -/
def State.pushRun (s : State) (p : Pixel) (n : Nat) : State := s.emits (List.replicate n (.pushPixel p))

/-- The pixels the sink answers to the next `ReadWindow` of `n` pixels: free (R216). -/
def State.sinkAnswer (s : State) (n : Nat) : List Pixel :=
  (List.range n).map fun i => Config.sinkPixel (s.freeIx + i)

/-- How many pixels a rectangle has, exactly (R111, R245). -/
def area (w h : Coord) : Nat := w.toNat * h.toNat

/-- `CopyRect` with the pixels `px` the sink answers (R246): the whole source is read into `st.copybuf` first, then
written out. -/
def State.copyRect (s : State) (px : List Pixel) (sx sy dx dy w h : Coord) : State :=
  let read : State :=
    { s.emit (.readWindow sx sy w h px) with
      copybuf := px ++ s.copybuf.drop px.length
      freeIx := s.freeIx + px.length }
  (read.emit (.setWindow dx dy w h)).emits ((read.copybuf.take (area w h)).map .pushPixel)

/-- `CopyOom` (R247). -/
def State.copyOom (s : State) (w h : Coord) : State :=
  s.raiseDiag Config.diagCopyOom [loByte w, hiByte w, loByte h, hiByte h]

/-- `ExecCopyArea` with a copy buffer of `cap` pixels, where the sink answers a read of `n` pixels by `answer n`
(R245). -/
def State.copyAreaWith (s : State) (cap : Nat) (answer : Nat → List Pixel) (sx sy dx dy w h : Coord) : State :=
  if area w h = 0 then s
  else if cap < area w h then s.copyOom w h
  else s.copyRect (answer (area w h)) sx sy dx dy w h

/-- `ExecRect` (R243, R244): half-open, and nothing for an empty or inverted rectangle. -/
def State.fillRect (s : State) (l t r b : Coord) (c : Pixel) : State :=
  if l < r ∧ t < b then s.emit (.fillRect l t r b c) else s

/-- `BitBltStart` (R250, R252). -/
def State.bitBltStart (s : State) (x y w h : Coord) : State :=
  let s : State :=
    { s with
      remaining := BitVec.ofNat 33 (area w h * 2)
      blkRem := 0#5
      blkPos := 0#5
      pxHalf := false }
  if s.remaining = 0#33 then s.complete else { s.emit (.setWindow x y w h) with fsm := .payload }

/-! ## Payload bytes -/

/-- `RawByte` (R181). -/
def State.rawByte (s : State) (d : Byte) : State :=
  let s := s.pixelByte d
  { s with remaining := s.remaining - 1#33 }

/-- `RleHeader` by its two fields (R186): the ignored bits are not read (R119). -/
def State.rleHeader (s : State) (common : Bool) (size : BitVec 3) : State :=
  let len : BitVec 5 := (size.setWidth 5 + 1#5) * 2#5
  { s with blkRem := len, blkCommon := common, blkPos := if common then len - 2#5 else 0#5 }

/-- How many pixels a common block pushes: its run, cut at the load (R189, R191). -/
def State.runLength (s : State) : Nat := min (s.blkRem.toNat / 2) (s.remaining.toNat / 2)

/-- A content byte of the open RLE block (the else branch of R198). -/
def State.rleContent (s : State) (d : Byte) : State :=
  let s : State := { s with blkPos := s.blkPos + 1#5 }
  if s.blkCommon then
    if s.blkPos = s.blkRem - 1#5 then { s with colorLo := d }
    else
      let n := s.runLength
      let s := s.pushRun (le16 s.colorLo d) n
      { s with remaining := s.remaining - BitVec.ofNat 33 (2 * n) }
  else s.rawByte d

/-- The end of a PayloadStep (R154): the command completes when nothing of the load is left. -/
def State.finishPayload (s : State) : State := if s.remaining = 0#33 then s.complete else s

/-! ## The Producer and Reset -/

/-- `FifoStore` (R72, R73). -/
def fifoStore (s : State) (d : Byte) (sop : Bool) : Result :=
  if s.fifoCount.toNat < Config.fifoCapacity then
    .next { s with
      fifoMem := s.fifoMem.write s.fifoWr.toNat ⟨d, sop⟩
      fifoWr := s.fifoWr + 1#15
      fifoCount := s.fifoCount + 1#16 }
  else
    match s.fifoMem.read s.fifoRd.toNat with
    | none => .fault .noEntry
    | some lost =>
      .next (State.raiseDiag
        { s with
          fifoMem := s.fifoMem.write s.fifoWr.toNat ⟨d, sop⟩
          fifoWr := s.fifoWr + 1#15
          fifoRd := s.fifoRd + 1#15 }
        Config.diagFifoOverflow [lost.data])

/-- `Reset` (R350): every element of the block at its reset value; the model's own four fields go on. -/
def State.resetBlock (s : State) : State :=
  { State.reset with out := s.out, sched := s.sched, freeIx := s.freeIx, params := s.params }

end Sys2Proof.Machine
end

