-- ==== Sys2Proof/Machine/Errors.lean ====
section
/-! DEFINITION. The header bytes that are refused: unknown opcodes (40_framer.md R150) and bytes that begin no frame
(R144). Both are next states: the event is recorded and the rest of the packet is dropped. -/

namespace Sys2Proof.Machine

/-- UNKNOWN_OPCODE, opcodes 0x06 and 0x07 (R150, R303). -/
def execUnknownOpcode06 (clear : Bool) (opcode : BitVec 6) (s : State) : Result :=
  withPop s fun _ s =>
    .next ((s.latchFrame (encode s.params (.unknownOpcode06 clear opcode))).unknownOpcode (mkHeader true clear opcode))

/-- UNKNOWN_OPCODE, opcodes 0x08 to 0x0F (R150, R303). -/
def execUnknownOpcode08 (clear : Bool) (opcode : BitVec 6) (s : State) : Result :=
  withPop s fun _ s =>
    .next ((s.latchFrame (encode s.params (.unknownOpcode08 clear opcode))).unknownOpcode (mkHeader true clear opcode))

/-- UNKNOWN_OPCODE, opcodes 0x10 to 0x1F (R150, R303). -/
def execUnknownOpcode10 (clear : Bool) (opcode : BitVec 6) (s : State) : Result :=
  withPop s fun _ s =>
    .next ((s.latchFrame (encode s.params (.unknownOpcode10 clear opcode))).unknownOpcode (mkHeader true clear opcode))

/-- UNKNOWN_OPCODE, opcodes 0x20 to 0x3F (R150, R303). -/
def execUnknownOpcode20 (clear : Bool) (opcode : BitVec 6) (s : State) : Result :=
  withPop s fun _ s =>
    .next ((s.latchFrame (encode s.params (.unknownOpcode20 clear opcode))).unknownOpcode (mkHeader true clear opcode))

/-- NON_FRAME (R144, R302): a framing error; the frame registers keep their values. -/
def execNonFrame (data : Byte) (s : State) : Result :=
  withPop s fun _ s => .next (s.takeError Config.diagFraming [data] .discard)

end Sys2Proof.Machine
end

