-- ==== Sys2Proof/Machine/Frames.lean ====
section
/-! DEFINITION. The six commands (43_commands.md), each the Engine step that pops the last byte of its fixed
header (R240), with the frame registers as R143 and R147 leave them. -/

namespace Sys2Proof.Machine

/-- `ExecNop` under a setting of `NOP_REPORTS` (R241). -/
def nopWith (reports : Bool) (s : State) : State := if reports then s.complete else s

/-- NOP (R151, R241): the ScanStep that pops its header byte; the framer stays in SCAN. -/
def execNop (clear : Bool) (s : State) : Result :=
  withPop s fun _ s => .next (nopWith s.params.nopReports (s.latchFrame (encode s.params (.nop clear))))

/-- FILL (R242). -/
def execFill (clear : Bool) (color : Pixel) (s : State) : Result :=
  withPop s fun _ s => .next ((s.latchFrame (encode s.params (.fill clear color))).emit (.fillScreen color)).complete

/-- RECT (R243, R244). -/
def execRect (clear : Bool) (left top right bottom : Coord) (color : Pixel) (s : State) : Result :=
  withPop s fun _ s =>
    .next ((s.latchFrame (encode s.params (.rect clear left top right bottom color))).fillRect left top right bottom color).complete

/-- COPY_AREA (R245 to R247): the copy buffer has `COPY_BUF_PIXELS` pixels and the sink's answer is free. -/
def execCopyArea (clear : Bool) (sx sy dx dy width height : Coord) (s : State) : Result :=
  withPop s fun _ s =>
    .next ((s.latchFrame (encode s.params (.copyArea clear sx sy dx dy width height))).copyAreaWith Config.copyBufPixels
      s.sinkAnswer sx sy dx dy width height).complete

/-- BITBLT (R249, R250): its fixed header completes. The payload follows (R154, R181). -/
def execBitblt (clear : Bool) (x y width height : Coord) (s : State) : Result :=
  withPop s fun _ s =>
    .next ((s.latchFrame (encode s.params (.bitblt clear x y width height))).bitBltStart x y width height)

/-- BITBLT_RLE (R250, R251): its fixed header completes. The payload follows (R154, R198). -/
def execBitbltRle (clear : Bool) (x y width height : Coord) (s : State) : Result :=
  withPop s fun _ s =>
    .next ((s.latchFrame (encode s.params (.bitbltRle clear x y width height))).bitBltStart x y width height)

end Sys2Proof.Machine
end

