-- ==== Sys2Proof/Machine/Payload.lean ====
section
/-! DEFINITION. What the bytes of a BitBlt payload do: continuation bytes (40_framer.md R155), RLE block headers
(41_rle_decoder.md R186), raw bytes (R181) and RLE content bytes (R188 to R190). -/

namespace Sys2Proof.Machine

/-- CONT_BITBLT (R155): popped and dropped, nothing else; its bits 7 and 6 have no effect. -/
def execContBitblt (_start _clear : Bool) (s : State) : Result := withPop s fun _ s => .next s

/-- CONT_BITBLT_RLE (R155): popped and dropped, nothing else; its bits 7 and 6 have no effect. -/
def execContBitbltRle (_start _clear : Bool) (s : State) : Result := withPop s fun _ s => .next s

/-- RLE_LITERAL (R186): opens a literal block. It produces no pixel and leaves the load as it is, so the BitBlt
never completes on it (R187). -/
def execRleLiteral (_ignored : BitVec 4) (size : BitVec 3) (s : State) : Result :=
  withPop s fun _ s => .next (s.rleHeader false size)

/-- RLE_COMMON (R186): opens a common block, of which only the two colour bytes follow. As for a literal block's
header, nothing is produced (R187). -/
def execRleCommon (_ignored : BitVec 4) (size : BitVec 3) (s : State) : Result :=
  withPop s fun _ s => .next (s.rleHeader true size)

/-- PayloadStep on a raw payload byte (R154, R181). -/
def rawStep (s : State) (d : Byte) : Result := withPop s fun _ s => .next (s.rawByte d).finishPayload

/-- PayloadStep on a content byte of an RLE block (R154, R198). -/
def contentStep (s : State) (d : Byte) : Result := withPop s fun _ s => .next (s.rleContent d).finishPayload

end Sys2Proof.Machine
end

