-- ==== Sys2Proof/Machine/Report.lean ====
section
/-! DEFINITION. The status reporter (44_status.md). -/

namespace Sys2Proof.Machine

/-- STATUS (R282, R284): the packet is built from DIRTY and offered to the transport. Nothing is popped. -/
def execStatus (s : State) : Result := .next s.sendStatus

/-- `BootStep` (R283): the startup packet. -/
def bootStep (s : State) : Result := .next { s.sendStatus with bootPending := false }

end Sys2Proof.Machine
end

