-- ==== Sys2Proof/Machine/Dispatch.lean ====
section
/-! DEFINITION. One arm per instruction. -/

namespace Sys2Proof.Machine

def exec (i : Instr) (s : State) : Host.Outcome State Fault Refusal :=
  match i with
  | .nop clear => Sys2Proof.Machine.execNop clear s
  | .fill clear color => Sys2Proof.Machine.execFill clear color s
  | .rect clear left top right bottom color => Sys2Proof.Machine.execRect clear left top right bottom color s
  | .copyArea clear sx sy dx dy width height => Sys2Proof.Machine.execCopyArea clear sx sy dx dy width height s
  | .bitblt clear x y width height => Sys2Proof.Machine.execBitblt clear x y width height s
  | .bitbltRle clear x y width height => Sys2Proof.Machine.execBitbltRle clear x y width height s
  | .unknownOpcode06 clear opcode => Sys2Proof.Machine.execUnknownOpcode06 clear opcode s
  | .unknownOpcode08 clear opcode => Sys2Proof.Machine.execUnknownOpcode08 clear opcode s
  | .unknownOpcode10 clear opcode => Sys2Proof.Machine.execUnknownOpcode10 clear opcode s
  | .unknownOpcode20 clear opcode => Sys2Proof.Machine.execUnknownOpcode20 clear opcode s
  | .nonFrame data => Sys2Proof.Machine.execNonFrame data s
  | .contBitblt start clear => Sys2Proof.Machine.execContBitblt start clear s
  | .contBitbltRle start clear => Sys2Proof.Machine.execContBitbltRle start clear s
  | .rleLiteral ignored size => Sys2Proof.Machine.execRleLiteral ignored size s
  | .rleCommon ignored size => Sys2Proof.Machine.execRleCommon ignored size s
  | .status => Sys2Proof.Machine.execStatus s

end Sys2Proof.Machine
end

