-- ==== Sys2Proof/Machine/Framer.lean ====
section
/-! DEFINITION. The fetch (40_framer.md R140): what the Engine does next, read from its state and the head entry
alone, and the Engine steps that complete no instruction (R143, R145 to R147, R156). -/

namespace Sys2Proof.Machine

/-- What the Engine does at its next step. -/
inductive Action where
  /-- The boot step (R283). -/
  | boot
  /-- No step is enabled: the ring buffer is empty (R142). -/
  | wait
  /-- A state the rules give no step for. -/
  | stop (f : Fault)
  /-- The head byte completes an instruction, which runs. -/
  | run (i : Instr)
  /-- SCAN accepts a header byte that takes arguments (R143). -/
  | accept (h : Byte)
  /-- HEADER takes an argument byte that is not the last (R147). -/
  | argument (d : Byte)
  /-- DISCARD drops an entry (R145). -/
  | drop
  /-- DISCARD meets a packet start (R146). -/
  | resync
  /-- PAYLOAD meets a packet start that does not match (R156). -/
  | desync (d : Byte)
  /-- PAYLOAD takes a raw payload byte (R181). -/
  | raw (d : Byte)
  /-- PAYLOAD takes a content byte of an RLE block (R188 to R190). -/
  | content (d : Byte)
  deriving DecidableEq, Repr

/-- ScanStep (R143, R144, R150, R151). -/
def fetchScan (s : State) (d : Byte) : Action :=
  match decode s.params .scan [d] with
  | .ok (i, _) => .run i
  | .error _ => .accept d

/-- HeaderStep (R147, R152). -/
def fetchHeader (s : State) (d : Byte) : Action :=
  match decode s.params .scan (s.frameBytes d) with
  | .ok (i, []) => .run i
  | .ok (_, _ :: _) => .stop .headerOverrun
  | .error _ => .argument d

/-- PayloadStep at a packet start (R155, R156). -/
def fetchContinuation (s : State) (d : Byte) : Action :=
  match decodeCont s.params s.hdr d with
  | some i => .run i
  | none => .desync d

/-- PayloadStep inside a packet (R154, R180, R185). -/
def fetchPayload (s : State) (d : Byte) : Action :=
  if s.remaining = 0#33 then .stop .payloadOverrun
  else if opcodeOf s.hdr = s.params.opcBitblt then .raw d
  else if s.blkRem ≤ s.blkPos then .run (decodeRle d)
  else .content d

/-- `EngineStep` (R140, R141, R161). -/
def fetch (s : State) : Action :=
  if s.bootPending then .boot
  else if s.fifoCount = 0#16 then .wait
  else
    match s.fifoHead? with
    | none => .stop .noEntry
    | some e =>
      match s.fsm with
      | .scan => fetchScan s e.data
      | .discard => if e.sop then .resync else .drop
      | .header => fetchHeader s e.data
      | .payload => if e.sop then fetchContinuation s e.data else fetchPayload s e.data

/-- ScanStep on a header byte with arguments (R143). -/
def acceptStep (s : State) (h : Byte) : Result :=
  withPop s fun _ s => .next { s.startFrame h with fsm := .header }

/-- HeaderStep on an argument byte that is not the last (R147, R148). -/
def argumentStep (s : State) (d : Byte) : Result := withPop s fun _ s => .next (s.pushArg d)

/-- DiscardStep inside a packet (R145). -/
def dropStep (s : State) : Result := withPop s fun _ s => .next s

/-- DiscardStep at a packet start (R146): nothing is popped. -/
def resyncStep (s : State) : Result := .next { s with fsm := .scan }

/-- PayloadStep on a synchronization error (R156): nothing is popped. -/
def desyncStep (s : State) (d : Byte) : Result := .next (s.syncError d)

/-- The state whose next fetch reads, as its last byte, the last byte of the instruction with these bits (the host
interface's `withFetchWord`): the boot step is past, the Engine moves next, and the instruction's earlier bytes stand
in the frame registers as R143 and R147 leave them. -/
def State.placeWord (s : State) (nbits w : Nat) : State :=
  let s : State := { s with bootPending := false, sched := [] }
  let s : State := if s.fifoCount = 0#16 then { s with fifoCount := 1#16, fifoWr := s.fifoRd + 1#15 } else s
  match wordBytes nbits w with
  | [] => s
  | h :: rest =>
    let n := need s.params (opcodeOf h)
    if frameStart h ∧ 0 < n then
      { s with
        fsm := .header
        hdr := h
        args := loadArgs s.args (rest.take (n - 1))
        argcnt := BitVec.ofNat 4 (n - 1)
        fifoMem := s.fifoMem.write s.fifoRd.toNat ⟨rest.getD (n - 1) 0, false⟩ }
    else { s with fsm := .scan, fifoMem := s.fifoMem.write s.fifoRd.toNat ⟨h, true⟩ }

end Sys2Proof.Machine
end

