-- ==== Sys2Proof/Machine/Engine.lean ====
section
/-! DEFINITION. One step of each agent (00_scope.md R9, 20_memory.md R80). -/

namespace Sys2Proof.Machine

/-- `EngineStep` (R140). With nothing to read the Engine has no step; the move passes and nothing changes (R142). -/
def engineStep (s : State) : Result :=
  match fetch s with
  | .boot => bootStep s
  | .wait => .next s
  | .stop f => .fault f
  | .run i => exec i s
  | .accept h => acceptStep s h
  | .argument d => argumentStep s d
  | .drop => dropStep s
  | .resync => resyncStep s
  | .desync d => desyncStep s d
  | .raw d => rawStep s d
  | .content d => contentStep s d

/-- The step of the agent whose move is next (R80); with no move scheduled the Engine moves. -/
def agentStep (s : State) : Result :=
  match s.sched with
  | [] => engineStep s
  | .engine :: rest => engineStep { s with sched := rest }
  | .store d sop :: rest => fifoStore { s with sched := rest } d sop
  | .reset :: rest => .next (State.resetBlock { s with sched := rest })

end Sys2Proof.Machine
end

