-- ==== Sys2Proof/Machine/Environment.lean ====
section
/-! DEFINITION. The collaborators of the block, at their interfaces: the packets of the Transport (10_state.md R41), the
contract assumed of the Display Sink (42_pixel_sequencer.md R212 to R217), and what reaches the host of the packets
offered on port status (44_status.md R284). None of it is state of the block (R38). -/

namespace Sys2Proof.Machine

/-- The ring buffer entries of one bulk-OUT packet: the first byte tagged, an empty packet none (R41). -/
def packetEntries (bytes : List Byte) : List FifoEntry :=
  match bytes with
  | [] => []
  | b :: rest => ⟨b, true⟩ :: rest.map fun d => ⟨d, false⟩

/-- The Producer's moves for one bulk-OUT packet (R41). -/
def packetMoves (bytes : List Byte) : List Move := (packetEntries bytes).map fun e => .store e.data e.sop

/-- The status packets the host receives when the transport answers the k-th offer by `accepted k`: the others are
dropped, and none is queued or retried (R42, R284). -/
def hostReceives (accepted : Nat → Bool) (k : Nat) (ts : List Transaction) : List StatusPacket :=
  match ts with
  | [] => []
  | .statusOut p :: rest => if accepted k then p :: hostReceives accepted (k + 1) rest else hostReceives accepted (k + 1) rest
  | .fillScreen _ :: rest => hostReceives accepted k rest
  | .fillRect _ _ _ _ _ :: rest => hostReceives accepted k rest
  | .setWindow _ _ _ _ :: rest => hostReceives accepted k rest
  | .pushPixel _ :: rest => hostReceives accepted k rest
  | .readWindow _ _ _ _ _ :: rest => hostReceives accepted k rest
  | .diag _ _ :: rest => hostReceives accepted k rest

/-- Whether a transaction is one of port `sink`. -/
def Transaction.isSink (t : Transaction) : Bool :=
  match t with
  | .fillScreen _ => true
  | .fillRect _ _ _ _ _ => true
  | .setWindow _ _ _ _ => true
  | .pushPixel _ => true
  | .readWindow _ _ _ _ _ => true
  | .statusOut _ => false
  | .diag _ _ => false

/-- Whether a transaction is one of port `status`. -/
def Transaction.isStatus (t : Transaction) : Bool :=
  match t with
  | .statusOut _ => true
  | .fillScreen _ => false
  | .fillRect _ _ _ _ _ => false
  | .setWindow _ _ _ _ => false
  | .pushPixel _ => false
  | .readWindow _ _ _ _ _ => false
  | .diag _ _ => false

/-- Whether a transaction is one of port `diag`. -/
def Transaction.isDiag (t : Transaction) : Bool :=
  match t with
  | .diag _ _ => true
  | .fillScreen _ => false
  | .fillRect _ _ _ _ _ => false
  | .setWindow _ _ _ _ => false
  | .pushPixel _ => false
  | .readWindow _ _ _ _ _ => false
  | .statusOut _ => false

/-- The destination window of the sink (R214). -/
structure Window where
  x : Nat
  y : Nat
  width : Nat
  height : Nat
  deriving DecidableEq, Repr

/-- A display sink: its pixels by column and row, its window, and its write cursor (R214, R217). DESIGN CHOICE
(log 17): its panel is an unbounded plane, so every coordinate is stored and none is clipped or wrapped. R219 leaves
what a sink does beyond its panel outside the spec. -/
structure Sink where
  pixels : Nat → Nat → Pixel
  window : Option Window
  cursor : Nat

/-- The pixels of a rectangle, row-major (R216). DESIGN CHOICE (log 17): the part of a rectangle beyond a panel's edge
is read from the unbounded plane like any other. -/
def Sink.read (m : Sink) (x y w h : Coord) : List Pixel :=
  (List.range (area w h)).map fun k => m.pixels (x.toNat + k % w.toNat) (y.toNat + k / w.toNat)

/-- What the contract says a transaction does to the sink (R212 to R217), and what the model chooses where R216, R217
and R219 leave it to the sink. DESIGN CHOICE (log 15): a push without a window, or beyond it, does nothing. DESIGN
CHOICE (log 17): fills and pushes beyond a panel's edge paint the unbounded plane. DESIGN CHOICE (log 18): a
`FillScreen` and a `FillRect` keep the window and the cursor. DESIGN CHOICE (log 19): a `ReadWindow` keeps the window
and the cursor. -/
def Sink.apply (m : Sink) (t : Transaction) : Sink :=
  match t with
  | .fillScreen c => { m with pixels := fun _ _ => c }
  | .fillRect l t r b c =>
    { m with
      pixels := fun x y =>
        if l.toNat ≤ x ∧ x < r.toNat ∧ t.toNat ≤ y ∧ y < b.toNat then c else m.pixels x y }
  | .setWindow x y w h => { m with window := some ⟨x.toNat, y.toNat, w.toNat, h.toNat⟩, cursor := 0 }
  | .pushPixel p =>
    match m.window with
    | none => m
    | some win =>
      if m.cursor < win.width * win.height then
        { m with
          pixels := fun x y =>
            if x = win.x + m.cursor % win.width ∧ y = win.y + m.cursor / win.width then p else m.pixels x y
          cursor := m.cursor + 1 }
      else m
  | .readWindow _ _ _ _ _ => m
  | .statusOut _ => m
  | .diag _ _ => m

/-- A list of transactions, in order (R85, R218). -/
def Sink.applyAll (m : Sink) (ts : List Transaction) : Sink := ts.foldl Sink.apply m

end Sys2Proof.Machine
end

