-- ==== Sys2Proof/Safety.lean ====
section
/-! DEFINITION. What counts as a safe run, and the terms the statements use: the invariant of every reachable state,
the queue the ring buffer stands for, and the payloads of the BitBlts. -/

namespace Sys2Proof.Safety

open Sys2Proof.Machine

/-! ## The invariant -/

/-- The ring buffer (R34, R35): indices and count agree, and every occupied slot holds an entry. -/
structure RingInv (s : State) : Prop where
  canonical : s.fifoMem.wf = true
  count_le : s.fifoCount.toNat ≤ 32768
  indices : s.fifoWr = s.fifoRd + s.fifoCount.setWidth 15
  occupied : ∀ i, i < s.fifoCount.toNat → (s.fifoSlot i).isSome = true

/-- The framer's registers (R24, R25, R147, R153). -/
structure FrameInv (s : State) : Prop where
  argcnt_le : s.argcnt.toNat ≤ 12
  header : s.fsm = .header → frameStart s.hdr = true ∧ s.argcnt.toNat < need s.params (opcodeOf s.hdr)
  payload : s.fsm = .payload → frameStart s.hdr = true
    ∧ (opcodeOf s.hdr = s.params.opcBitblt ∨ opcodeOf s.hdr = s.params.opcBitbltRle) ∧ s.remaining ≠ 0#33
  idle : s.fsm ≠ .payload → s.remaining = 0#33
  load_le : s.remaining.toNat ≤ 8589672450

/-- The RLE decoder and the pixel latch (R26, R27, R29, R193). -/
structure DecoderInv (s : State) : Prop where
  rem_le : s.blkRem.toNat ≤ 16
  rem_even : s.blkRem.toNat % 2 = 0
  pos_le : s.blkPos.toNat ≤ s.blkRem.toNat
  common_open : s.blkCommon = true → s.blkPos.toNat < s.blkRem.toNat → s.blkRem.toNat ≤ s.blkPos.toNat + 2
  load_parity : s.fsm = .payload → (s.pxHalf = true ↔ s.remaining.toNat % 2 = 1)
  rle_whole : s.fsm = .payload → opcodeOf s.hdr = s.params.opcBitbltRle →
    s.blkRem.toNat ≤ s.blkPos.toNat ∨ s.blkCommon = true → s.pxHalf = false
  rle_literal : s.fsm = .payload → opcodeOf s.hdr = s.params.opcBitbltRle → s.blkCommon = false →
    s.blkPos.toNat < s.blkRem.toNat → (s.pxHalf = true ↔ s.blkPos.toNat % 2 = 1)

/-- What holds of every state a run from reset reaches, and of every other setting of the parameters with six
different opcodes. -/
structure Inv (s : State) : Prop where
  ring : RingInv s
  frame : FrameInv s
  decoder : DecoderInv s
  copybuf_le : s.copybuf.length ≤ Config.copyBufPixels
  params : s.params.valid = true

/-- A safe state: its next step is a next state, not a fault or a refusal (R300: nothing stops the block). -/
def Steps (s : State) : Prop := ∃ t, step s = .next t

/-! ## Terms of the statements -/

/-- The Engine moves next, past the boot step, with `e` at the head of the ring buffer (R140). -/
structure Ready (s : State) (e : FifoEntry) : Prop where
  sched : s.sched = []
  booted : s.bootPending = false
  head : s.fifoHead? = some e

/-- The status packet that reports DIRTY (R120). -/
def statusOf (dirty : Bool) : StatusPacket := ⟨0x00#8, if dirty then 0x80#8 else 0x00#8, 0x00#8, 0x00#8, 0x00#8⟩

/-- `s` with its head entry popped (R75). -/
def pop (s : State) : State := { s with fifoRd := s.fifoRd + 1#15, fifoCount := s.fifoCount - 1#16 }

/-- The header byte of an opcode, with CLEAR_DIRTY as given (R100). -/
def headerByte (op : BitVec 6) (clear : Bool) : Byte := (if clear then 0xC0#8 else 0x80#8) ||| op.setWidth 8

/-- Whether the first byte `d` of a packet continues the BitBlt with header byte `h` (R113). -/
def Continues (p : Config.Params) (d h : Byte) : Prop :=
  d.setWidth 6 = (h.setWidth 6 : BitVec 6) ∧ (p.contMatch = .opcodeField ∨ d.getLsbD 7 = false)

/-- `s` after a command has issued `ts` and completed (R258): DIRTY is cleared if its CLEAR_DIRTY bit is set, the
packet reports the DIRTY so left, and the framer is in SCAN. -/
def completed (s : State) (clear : Bool) (ts : List Transaction) : State :=
  { s with
    dirty := s.dirty && !clear
    out := s.out ++ ts ++ [.statusOut (statusOf (s.dirty && !clear))]
    fsm := .scan }

/-- `s` with its head popped and the frame registers holding the header byte `h` and `n` argument bytes (R24). -/
def received (s : State) (h : Byte) (args : Vector Byte 12) (n : BitVec 4) : State :=
  { pop s with hdr := h, args := args, argcnt := n }

/-- The first and the second wire byte of a 16-bit field (R70). -/
def lo (v : BitVec 16) : Byte := BitVec.ofNat 8 (v.toNat % 256)
/-- The second wire byte of a 16-bit field (R70). -/
def hi (v : BitVec 16) : Byte := BitVec.ofNat 8 (v.toNat / 256)

/-- `s` after the pixel assembler has taken the byte `d` (R211). -/
def assembled (s : State) (d : Byte) : State :=
  if s.pxHalf then { s with out := s.out ++ [.pushPixel (d ++ s.pxLo)], pxHalf := false }
  else { s with pxLo := d, pxHalf := true }

/-- `s` at the end of a PayloadStep: the BitBlt completes when nothing of its load is left (R154). -/
def ended (s : State) : State := if s.remaining = 0#33 then completed s (s.hdr.getLsbD 6) [] else s

/-- `s` after `n` of its load has been produced (R192). -/
def consumed (s : State) (n : Nat) : State := { s with remaining := BitVec.ofNat 33 (s.remaining.toNat - n) }

/-! ## The queue the ring buffer stands for (R71) -/

/-- An operation on the ring buffer. -/
inductive QueueOp where
  | store (e : FifoEntry)
  | pop
  deriving DecidableEq, Repr

/-- What the pops return, on the ring buffer (R72 to R75); a pop of the empty buffer has no step (R76). -/
def ringPops (s : State) (ops : List QueueOp) : List (Option FifoEntry) :=
  match ops with
  | [] => []
  | .store e :: rest =>
    match fifoStore s e.data e.sop with
    | .next t => ringPops t rest
    | .fault _ => []
    | .refused _ => []
  | .pop :: rest => if s.fifoCount = 0#16 then ringPops s rest else s.fifoHead? :: ringPops s.popped rest

/-- What the pops return, on a queue that drops its oldest entry when a store finds 32768 (R77, R78). -/
def queuePops (q : List FifoEntry) (ops : List QueueOp) : List (Option FifoEntry) :=
  match ops with
  | [] => []
  | .store e :: rest => if q.length < 32768 then queuePops (q ++ [e]) rest else queuePops (q.tail ++ [e]) rest
  | .pop :: rest =>
    match q with
    | [] => queuePops [] rest
    | e :: q' => some e :: queuePops q' rest

/-! ## Payloads -/

/-- The wire bytes of pixels, low byte first (R114). -/
def pixelBytes (px : List Pixel) : List Byte := px.flatMap fun p => [lo p, hi p]

/-- An RLE block: `LIT` or `RUN` (R125). -/
inductive RleBlock where
  | literal (px : List Pixel)
  | common (n : Nat) (color : Pixel)
  deriving DecidableEq, Repr

/-- The pixels a block stands for (R117, R118). -/
def RleBlock.pixels (b : RleBlock) : List Pixel :=
  match b with
  | .literal px => px
  | .common n color => List.replicate n color

/-- A block stands for 1 to 8 pixels (R116). -/
def RleBlock.valid (b : RleBlock) : Bool := decide (1 ≤ b.pixels.length) && decide (b.pixels.length ≤ 8)

/-- The wire bytes of a block of n pixels, so that its size selector is n - 1 (R116 to R118). -/
def RleBlock.bytes (b : RleBlock) : List Byte :=
  match b with
  | .literal px => BitVec.ofNat 8 (px.length - 1) :: pixelBytes px
  | .common n color => BitVec.ofNat 8 (0x80 + (n - 1)) :: [lo color, hi color]

/-- The payload bytes among ring buffer entries met in PAYLOAD: those that begin no packet (R112). -/
def payloadOf (es : List FifoEntry) : List Byte := (es.filter fun e => !e.sop).map FifoEntry.data

/-- Every entry that begins a packet is a continuation byte of opcode `op` (R113), and the last entry is a payload
byte. -/
def wellPacketed (p : Config.Params) (op : BitVec 6) (es : List FifoEntry) : Bool :=
  (es.all fun e => !e.sop || (opcodeOf e.data == op && (p.contMatch == .opcodeField || !e.data.getLsbD 7)))
    && (es.getLast?.all fun e => !e.sop)

/-- The status packets among transactions. -/
def statusCount (ts : List Transaction) : Nat := (ts.filter Transaction.isStatus).length

end Sys2Proof.Safety
end

