-- ==== Sys2Proof/Certificates/Slice0/Obligations.lean ====
section
/-! DEFINITION. The statements. Each docstring names the rules of spec/ it rests on. -/

open Sys2Proof Sys2Proof.Machine Sys2Proof.Safety

/-! ## Encoding -/

/-- Under every setting of the parameters, decoding what the encoder writes gives the instruction back and leaves the
bytes after it (R100 to R127). -/
def Obligations.DecodeUndoesEncode : Prop :=
  ∀ (p : Config.Params) (i : Instr) (c : Ctx) (rest : List Byte), p.valid = true → i.wellFormed p = true →
    i.readIn p c = true → decode p c (encode p i ++ rest) = .ok (i, rest)

/-- Under every setting of the parameters, bytes that decode have one meaning: encoding it gives the same bytes back,
in every context but the host's side of the status endpoint, whose DIRTY bit is no operand. -/
def Obligations.EncodeUndoesDecode : Prop :=
  ∀ (p : Config.Params) (c : Ctx) (bs rest : List Byte) (i : Instr), c ≠ .statusIn → decode p c bs = .ok (i, rest) →
    encode p i ++ rest = bs ∧ i.wellFormed p = true ∧ i.readIn p c = true

/-- The opcode map as mask and match, under the default opcodes (R127). -/
def Obligations.BytesDecodeByMaskAndMatch : Prop :=
  ∀ b h : Byte,
    (b &&& 0x80#8 = 0x00#8 → decode .defaults .scan [b] = .ok (.nonFrame b, [])) ∧
    (b &&& 0xBF#8 = 0x80#8 → decode .defaults .scan [b] = .ok (.nop (b.getLsbD 6), [])) ∧
    (b &&& 0xBF#8 = 0x81#8 → decode .defaults .scan [b, 0, 0] = .ok (.fill (b.getLsbD 6) 0, [])) ∧
    (b &&& 0xBF#8 = 0x82#8 →
      decode .defaults .scan (b :: List.replicate 10 0) = .ok (.rect (b.getLsbD 6) 0 0 0 0 0, [])) ∧
    (b &&& 0xBF#8 = 0x83#8 →
      decode .defaults .scan (b :: List.replicate 12 0) = .ok (.copyArea (b.getLsbD 6) 0 0 0 0 0 0, [])) ∧
    (b &&& 0xBF#8 = 0x84#8 →
      decode .defaults .scan (b :: List.replicate 8 0) = .ok (.bitblt (b.getLsbD 6) 0 0 0 0, [])) ∧
    (b &&& 0xBF#8 = 0x85#8 →
      decode .defaults .scan (b :: List.replicate 8 0) = .ok (.bitbltRle (b.getLsbD 6) 0 0 0 0, [])) ∧
    (b &&& 0xBE#8 = 0x86#8 → decode .defaults .scan [b] = .ok (.unknownOpcode06 (b.getLsbD 6) (b.setWidth 6), [])) ∧
    (b &&& 0xB8#8 = 0x88#8 → decode .defaults .scan [b] = .ok (.unknownOpcode08 (b.getLsbD 6) (b.setWidth 6), [])) ∧
    (b &&& 0xB0#8 = 0x90#8 → decode .defaults .scan [b] = .ok (.unknownOpcode10 (b.getLsbD 6) (b.setWidth 6), [])) ∧
    (b &&& 0xA0#8 = 0xA0#8 → decode .defaults .scan [b] = .ok (.unknownOpcode20 (b.getLsbD 6) (b.setWidth 6), [])) ∧
    (contMatches .opcodeField b h = true ↔ b &&& 0x3F#8 = h &&& 0x3F#8) ∧
    (b &&& 0x80#8 = 0x00#8 →
      decode .defaults .rleBoundary [b] = .ok (.rleLiteral ((b >>> 3).setWidth 4) (b.setWidth 3), [])) ∧
    (b &&& 0x80#8 = 0x80#8 →
      decode .defaults .rleBoundary [b] = .ok (.rleCommon ((b >>> 3).setWidth 4) (b.setWidth 3), []))

/-- The length of each frame's fixed header (R104, second and third column), and how many bytes SCAN needs of it. -/
def Obligations.FixedHeaderLengths : Prop :=
  ∀ p : Config.Params,
    (∀ c, (encode p (.nop c)).length = 1) ∧
    (∀ c color, (encode p (.fill c color)).length = 3) ∧
    (∀ c l t r b color, (encode p (.rect c l t r b color)).length = 11) ∧
    (∀ c sx sy dx dy w h, (encode p (.copyArea c sx sy dx dy w h)).length = 13) ∧
    (∀ c x y w h, (encode p (.bitblt c x y w h)).length = 9) ∧
    (∀ c x y w h, (encode p (.bitbltRle c x y w h)).length = 9) ∧
    (p.valid = true → need p p.opcNop = 0 ∧ need p p.opcFill = 2 ∧ need p p.opcRect = 10 ∧
      need p p.opcCopyArea = 12 ∧ need p p.opcBitblt = 8 ∧ need p p.opcBitbltRle = 8)

/-- The encodings spelled out in R105 to R109, R113 and R116, as bytes. -/
def Obligations.SpecExamplesDecode : Prop :=
  decode .defaults .scan [0x80#8] = .ok (.nop false, []) ∧
  decode .defaults .scan [0xC1#8, 0x00#8, 0xF8#8] = .ok (.fill true 0xF800#16, []) ∧
  decode .defaults .scan [0x82#8, 0x01#8, 0x00#8, 0x02#8, 0x00#8, 0x03#8, 0x00#8, 0x04#8, 0x00#8, 0x1F#8, 0x00#8]
    = .ok (.rect false 1 2 3 4 0x001F#16, []) ∧
  decode .defaults .scan [0x83#8, 0x00#8, 0x00#8, 0x0A#8, 0x00#8, 0x00#8, 0x00#8, 0x00#8, 0x00#8, 0x40#8, 0x01#8,
    0x01#8, 0x00#8] = .ok (.copyArea false 0 10 0 0 320 1, []) ∧
  decode .defaults .scan [0x85#8, 0x00#8, 0x00#8, 0x00#8, 0x00#8, 0x02#8, 0x00#8, 0x01#8, 0x00#8]
    = .ok (.bitbltRle false 0 0 2 1, []) ∧
  decode .defaults (.payloadStart 0x84#8) [0x04#8] = .ok (.contBitblt false false, []) ∧
  decode .defaults (.payloadStart 0x84#8) [0x05#8] = .error (.contMismatch 0x84#8 0x05#8) ∧
  decode { Config.Params.defaults with contMatch := .opcodeFieldNoStart } (.payloadStart 0x84#8) [0x84#8]
    = .error (.contMismatch 0x84#8 0x84#8) ∧
  decode { Config.Params.defaults with contMatch := .opcodeFieldNoStart } (.payloadStart 0x84#8) [0x04#8]
    = .ok (.contBitblt false false, []) ∧
  decode .defaults .rleBoundary [0x81#8] = .ok (.rleCommon 0 1, []) ∧
  decode .defaults .rleBoundary [0x07#8] = .ok (.rleLiteral 0 7, [])

/-- Every 16-bit wire integer is little-endian and unsigned (R10, R70, R110). -/
def Obligations.WireIntegersAreLittleEndian : Prop :=
  ∀ b0 b1 : Byte, (le16 b0 b1).toNat = b0.toNat + 256 * b1.toNat ∧ fieldBytes (le16 b0 b1) = [b0, b1]

/-! ## Commands -/

/-- NOP (R241): the header byte is taken and nothing else happens, whatever CLEAR_DIRTY is; with `NOP_REPORTS` set it
completes like a drawing command. -/
def Obligations.NopTakesItsHeaderByteOnly : Prop :=
  ∀ (clear : Bool) (s : State) (e : FifoEntry), s.fifoHead? = some e →
    let r := received s (headerByte s.params.opcNop clear) s.args 0#4
    exec (.nop clear) s = .next (if s.params.nopReports then completed r clear [] else r)

/-- FILL (R242): one `FillScreen`, then the completion. -/
def Obligations.FillPaintsThePanelAndCompletes : Prop :=
  ∀ (clear : Bool) (color : Pixel) (s : State) (e : FifoEntry), s.fifoHead? = some e →
    exec (.fill clear color) s = .next (completed
      (received s (headerByte s.params.opcFill clear) ((s.args.set 0 (lo color)).set 1 (hi color)) 2#4) clear
      [.fillScreen color])

/-- RECT (R243, R244): one `FillRect` of a half-open rectangle, none when it is empty or inverted; it completes in
every case. -/
def Obligations.RectPaintsItsHalfOpenRectangle : Prop :=
  ∀ (clear : Bool) (l t r b : Coord) (color : Pixel) (s : State) (e : FifoEntry), s.fifoHead? = some e →
    exec (.rect clear l t r b color) s = .next (completed
      (received s (headerByte s.params.opcRect clear)
        #v[lo l, hi l, lo t, hi t, lo r, hi r, lo b, hi b, lo color, hi color, s.args[10], s.args[11]] 10#4) clear
      (if l.toNat < r.toNat ∧ t.toNat < b.toNat then [.fillRect l t r b color] else []))

/-- COPY_AREA (R245 to R247): nothing for a zero area, an event for one larger than `COPY_BUF_PIXELS`, else the whole
source is read before the destination is written; it completes in every case. The pixels the sink answers are free. -/
def Obligations.CopyAreaReadsAllThenWritesAll : Prop :=
  ∀ (clear : Bool) (sx sy dx dy w h : Coord) (s : State) (e : FifoEntry), s.fifoHead? = some e →
    let n := w.toNat * h.toNat
    let px := (List.range n).map fun i => Config.sinkPixel (s.freeIx + i)
    let r := received s (headerByte s.params.opcCopyArea clear)
      #v[lo sx, hi sx, lo sy, hi sy, lo dx, hi dx, lo dy, hi dy, lo w, hi w, lo h, hi h] 12#4
    exec (.copyArea clear sx sy dx dy w h) s = .next (
      if n = 0 then completed r clear []
      else if Config.copyBufPixels < n then completed r clear [.diag 0x05#8 [lo w, hi w, lo h, hi h]]
      else completed { r with copybuf := px ++ s.copybuf.drop n, freeIx := s.freeIx + n } clear
        ([.readWindow sx sy w h px, .setWindow dx dy w h] ++ px.map .pushPixel))

/-- COPY_AREA's three cases for a copy buffer of any size and any answer of the sink of the right length (R245 to
R247). -/
def Obligations.CopyAreaCasesByBufferSize : Prop :=
  ∀ (s : State) (cap : Nat) (answer : Nat → List Pixel) (sx sy dx dy w h : Coord),
    (answer (w.toNat * h.toNat)).length = w.toNat * h.toNat →
    let n := w.toNat * h.toNat
    (n = 0 → s.copyAreaWith cap answer sx sy dx dy w h = s) ∧
    (cap < n → s.copyAreaWith cap answer sx sy dx dy w h
      = { s with out := s.out ++ [.diag 0x05#8 [lo w, hi w, lo h, hi h]] }) ∧
    (0 < n → n ≤ cap → s.copyAreaWith cap answer sx sy dx dy w h
      = { s with
          copybuf := answer n ++ s.copybuf.drop n
          freeIx := s.freeIx + n
          out := s.out ++ ([.readWindow sx sy w h (answer n), .setWindow dx dy w h] ++ (answer n).map .pushPixel) })

/-- BITBLT and BITBLT_RLE at the end of their fixed header (R250, R252): the load, the cursors and the latch are set;
a load of 0 completes at once with no window, any other opens the window and waits for the payload. -/
def Obligations.BitBltStartsOrCompletesAtOnce : Prop :=
  ∀ (clear : Bool) (x y w h : Coord) (s : State) (e : FifoEntry), s.fifoHead? = some e →
    let started := fun op : BitVec 6 =>
      let r : State := { received s (headerByte op clear)
          #v[lo x, hi x, lo y, hi y, lo w, hi w, lo h, hi h, s.args[8], s.args[9], s.args[10], s.args[11]] 8#4 with
        remaining := BitVec.ofNat 33 (w.toNat * h.toNat * 2)
        blkRem := 0#5
        blkPos := 0#5
        pxHalf := false }
      if w.toNat * h.toNat = 0 then completed r clear []
      else { r with out := s.out ++ [.setWindow x y w h], fsm := .payload }
    exec (.bitblt clear x y w h) s = .next (started s.params.opcBitblt) ∧
    exec (.bitbltRle clear x y w h) s = .next (started s.params.opcBitbltRle)

/-- The load of a BitBlt is exact: 33 bits hold every `width*height*2` (R8, R111). -/
def Obligations.LoadIsExact : Prop :=
  ∀ (clear : Bool) (x y w h : Coord) (s : State) (e : FifoEntry), s.fifoHead? = some e →
    (∃ t, exec (.bitblt clear x y w h) s = .next t ∧ t.remaining.toNat = w.toNat * h.toNat * 2
      ∧ t.remaining.toNat ≤ 8589672450) ∧
    (∃ t, exec (.bitbltRle clear x y w h) s = .next t ∧ t.remaining.toNat = w.toNat * h.toNat * 2
      ∧ t.remaining.toNat ≤ 8589672450)

/-! ## Refused header bytes -/

/-- An unknown opcode (R150): the byte is taken as header byte, the event records it, and the rest of the packet is
dropped; no sink transaction, no status packet, DIRTY unchanged. -/
def Obligations.UnknownOpcodesAreRecordedAndDiscarded : Prop :=
  (∀ (clear : Bool) (op : BitVec 6) (s : State) (e : FifoEntry), s.fifoHead? = some e →
    let h := headerByte op clear
    let t : State := { received s h s.args 0#4 with out := s.out ++ [.diag 0x02#8 [h]], fsm := .discard }
    exec (.unknownOpcode06 clear op) s = .next t ∧ exec (.unknownOpcode08 clear op) s = .next t ∧
    exec (.unknownOpcode10 clear op) s = .next t ∧ exec (.unknownOpcode20 clear op) s = .next t) ∧
  (∀ (s : State) (e : FifoEntry), Ready s e → s.fsm = .scan → e.data.getLsbD 7 = true →
    e.data.setWidth 6 ∉ s.params.opcodes →
    step s = .next { received s e.data s.args 0#4 with
      out := s.out ++ [.diag 0x02#8 [e.data]], fsm := .discard })

/-- A byte with bit 7 = 0 met in SCAN (R144): popped, recorded, and the framer goes to DISCARD. -/
def Obligations.NonFrameByteIsRecordedAndDiscarded : Prop :=
  (∀ (d : Byte) (s : State) (e : FifoEntry), s.fifoHead? = some e →
    exec (.nonFrame d) s = .next { pop s with out := s.out ++ [.diag 0x01#8 [d]], fsm := .discard }) ∧
  (∀ (s : State) (e : FifoEntry), Ready s e → s.fsm = .scan → e.data.getLsbD 7 = false →
    step s = .next { pop s with out := s.out ++ [.diag 0x01#8 [e.data]], fsm := .discard })

/-! ## Payload bytes -/

/-- A continuation byte that matches (R155) is popped and dropped, and nothing else changes. -/
def Obligations.MatchingContinuationByteIsDropped : Prop :=
  (∀ (start clear : Bool) (s : State) (e : FifoEntry), s.fifoHead? = some e →
    exec (.contBitblt start clear) s = .next (pop s) ∧ exec (.contBitbltRle start clear) s = .next (pop s)) ∧
  (∀ d h : Byte,
    (contMatches .opcodeField d h = true ↔ d.setWidth 6 = h.setWidth 6) ∧
    (contMatches .opcodeFieldNoStart d h = true ↔ d.setWidth 6 = h.setWidth 6 ∧ d.getLsbD 7 = false)) ∧
  (∀ (s : State) (e : FifoEntry), Ready s e → s.fsm = .payload → e.sop = true →
    (s.hdr.setWidth 6 = s.params.opcBitblt ∨ s.hdr.setWidth 6 = s.params.opcBitbltRle) →
    Continues s.params e.data s.hdr → step s = .next (pop s))

/-- A packet start that does not match (R156, R304, R310): the event, the abort, and the byte stays at the head. -/
def Obligations.MismatchedContinuationByteAborts : Prop :=
  ∀ (s : State) (e : FifoEntry), Ready s e → s.fsm = .payload → e.sop = true →
    ¬ Continues s.params e.data s.hdr →
    step s = .next { s with
      out := s.out ++ [.diag 0x03#8 [s.hdr &&& 0x3F#8, e.data]], remaining := 0#33, fsm := .scan }

/-- The header byte of an RLE block (R186, R119): length, mode and position; bits 6:3 have no effect. -/
def Obligations.RleHeaderOpensItsBlock : Prop :=
  (∀ (ig : BitVec 4) (sz : BitVec 3) (s : State) (e : FifoEntry), s.fifoHead? = some e →
    exec (.rleLiteral ig sz) s = .next { pop s with
      blkRem := BitVec.ofNat 5 (2 * (sz.toNat + 1)), blkCommon := false, blkPos := 0#5 } ∧
    exec (.rleCommon ig sz) s = .next { pop s with
      blkRem := BitVec.ofNat 5 (2 * (sz.toNat + 1)), blkCommon := true, blkPos := BitVec.ofNat 5 (2 * sz.toNat) }) ∧
  (∀ (s : State) (e : FifoEntry), Ready s e → s.fsm = .payload → e.sop = false →
    s.hdr.setWidth 6 ≠ s.params.opcBitblt → s.remaining ≠ 0#33 → s.blkRem.toNat ≤ s.blkPos.toNat →
    step s = .next { pop s with
      blkRem := BitVec.ofNat 5 (2 * (e.data.toNat % 8 + 1))
      blkCommon := decide (128 ≤ e.data.toNat)
      blkPos := if 128 ≤ e.data.toNat then BitVec.ofNat 5 (2 * (e.data.toNat % 8)) else 0#5 })

/-- A raw payload byte (R154, R181, R211): half a pixel, the load drops by 1, and the BitBlt completes at 0. -/
def Obligations.RawByteIsHalfAPixel : Prop :=
  ∀ (s : State) (e : FifoEntry), Ready s e → s.fsm = .payload → e.sop = false →
    s.hdr.setWidth 6 = s.params.opcBitblt → s.remaining ≠ 0#33 →
    step s = .next (ended (consumed (assembled (pop s) e.data) 1))

/-- The content bytes of RLE blocks (R188 to R191): a common block's first colour byte is latched, its second pushes
the run, cut at the load; a literal byte is half a pixel. -/
def Obligations.RleContentBytesDecode : Prop :=
  ∀ (s : State) (e : FifoEntry), Ready s e → s.fsm = .payload → e.sop = false →
    s.hdr.setWidth 6 ≠ s.params.opcBitblt → s.remaining ≠ 0#33 →
    (s.blkCommon = true → s.blkPos.toNat + 2 = s.blkRem.toNat →
      step s = .next { pop s with blkPos := s.blkPos + 1#5, colorLo := e.data }) ∧
    (s.blkCommon = true → s.blkPos.toNat + 1 = s.blkRem.toNat →
      let n := min (s.blkRem.toNat / 2) (s.remaining.toNat / 2)
      step s = .next (ended (consumed { pop s with
        blkPos := s.blkPos + 1#5
        out := s.out ++ List.replicate n (.pushPixel (e.data ++ s.colorLo)) } (2 * n)))) ∧
    (s.blkCommon = false → s.blkPos.toNat < s.blkRem.toNat →
      step s = .next (ended (consumed (assembled { pop s with blkPos := s.blkPos + 1#5 } e.data) 1)))

/-! ## Framer and status -/

/-- The step runs exactly the instruction the bytes decode to, in each of the framer's contexts; the boot step runs
STATUS and clears `st.boot_pending` (R140, R152, R283). -/
def Obligations.StepRunsTheDecodedInstruction : Prop :=
  (∀ (s : State) (e : FifoEntry) (i : Instr), Ready s e → i.wellFormed s.params = true →
    (s.fsm = .scan → decode s.params .scan [e.data] = .ok (i, []) → step s = exec i s) ∧
    (s.fsm = .header → decode s.params .scan (s.frameBytes e.data) = .ok (i, []) → step s = exec i s) ∧
    (s.fsm = .payload → e.sop = true → decode s.params (.payloadStart s.hdr) [e.data] = .ok (i, []) →
      step s = exec i s) ∧
    (s.fsm = .payload → e.sop = false → s.hdr.setWidth 6 ≠ s.params.opcBitblt → s.remaining ≠ 0#33 →
      s.blkRem.toNat ≤ s.blkPos.toNat → decode s.params .rleBoundary [e.data] = .ok (i, []) → step s = exec i s)) ∧
  (∀ s : State, s.sched = [] → s.bootPending = true →
    ∃ t, exec .status s = .next t ∧ step s = .next { t with bootPending := false })

/-- A header byte that takes arguments is accepted (R143): it is popped into `st.hdr`, the count is 0, and the framer
is in HEADER; its packet tag does not matter. -/
def Obligations.HeaderByteWithArgumentsIsAccepted : Prop :=
  ∀ (s : State) (e : FifoEntry), Ready s e → s.params.valid = true → s.fsm = .scan → e.data.getLsbD 7 = true →
    e.data.setWidth 6 ∈ s.params.withArguments →
    step s = .next { received s e.data s.args 0#4 with fsm := .header }

/-- An argument byte that is not the last is appended, whatever its bit 7 and its packet tag (R147, R148). -/
def Obligations.ArgumentByteIsAppended : Prop :=
  ∀ (s : State) (e : FifoEntry), Ready s e → s.fsm = .header → s.hdr.getLsbD 7 = true →
    s.argcnt.toNat + 1 < need s.params (s.hdr.setWidth 6) →
    step s = .next (received s s.hdr (s.args.setIfInBounds s.argcnt.toNat e.data) (s.argcnt + 1#4))

/-- The last argument byte dispatches the command whose encoding is the bytes received (R147, R152). -/
def Obligations.LastArgumentByteDispatches : Prop :=
  ∀ (s : State) (e : FifoEntry), Ready s e → s.fsm = .header → s.hdr.getLsbD 7 = true →
    s.argcnt.toNat + 1 = need s.params (s.hdr.setWidth 6) →
    ∃ i, encode s.params i = s.hdr :: (s.args.toList.take s.argcnt.toNat ++ [e.data]) ∧
      i.readIn s.params .scan = true ∧ step s = exec i s

/-- DISCARD drops entries up to the next packet start, which it leaves for SCAN (R145, R146). -/
def Obligations.DiscardDropsUpToThePacketStart : Prop :=
  ∀ (s : State) (e : FifoEntry), Ready s e → s.fsm = .discard →
    (e.sop = false → step s = .next (pop s)) ∧ (e.sop = true → step s = .next { s with fsm := .scan })

/-- STATUS (R282): the packet `00 80 00 00 00` or `00 00 00 00 00` by DIRTY is offered, and nothing else changes. -/
def Obligations.StatusReportsDirty : Prop :=
  ∀ s : State, exec .status s = .next { s with
    out := s.out ++ [.statusOut ⟨0x00#8, if s.dirty then 0x80#8 else 0x00#8, 0x00#8, 0x00#8, 0x00#8⟩] }

/-- The boot step (R283): one status packet, `st.boot_pending` cleared, nothing else, with or without bytes waiting. -/
def Obligations.BootStepSendsTheStartupPacket : Prop :=
  (∀ s : State, s.sched = [] → s.bootPending = true →
    step s = .next { s with out := s.out ++ [.statusOut (statusOf s.dirty)], bootPending := false }) ∧
  step State.reset = .next { State.reset with
    out := [.statusOut ⟨0x00#8, 0x80#8, 0x00#8, 0x00#8, 0x00#8⟩], bootPending := false }

/-- With nothing to read the Engine waits and every register keeps its value, for any number of steps (R142). -/
def Obligations.EmptyRingBufferChangesNothing : Prop :=
  ∀ (s : State) (k : Nat), s.sched = [] → s.bootPending = false → s.fifoCount = 0#16 →
    Host.Core.run Sys2Proof.core k s = .next s

/-! ## Ring buffer, reset and the agents -/

/-- A store into a ring buffer that is not full (R72). -/
def Obligations.StoreAppendsAnEntry : Prop :=
  ∀ (s : State) (d : Byte) (p : Bool) (r : List Move), s.sched = .store d p :: r → s.fifoCount.toNat < 32768 →
    ∃ m : Memory, step s = .next { s with
        sched := r, fifoMem := m, fifoWr := s.fifoWr + 1#15, fifoCount := s.fifoCount + 1#16 } ∧
      m.read s.fifoWr.toNat = some ⟨d, p⟩ ∧ ∀ a, a ≠ s.fifoWr.toNat → m.read a = s.fifoMem.read a

/-- A store into a full ring buffer overwrites the oldest entry and records its byte (R73). -/
def Obligations.StoreIntoFullOverwritesTheOldest : Prop :=
  ∀ (s : State) (d : Byte) (p : Bool) (r : List Move) (lost : FifoEntry), s.sched = .store d p :: r →
    s.fifoCount = 32768#16 → s.fifoMem.read s.fifoRd.toNat = some lost →
    ∃ m : Memory, step s = .next { s with
        sched := r, fifoMem := m, fifoWr := s.fifoWr + 1#15, fifoRd := s.fifoRd + 1#15
        out := s.out ++ [.diag 0x04#8 [lost.data]] } ∧
      m.read s.fifoWr.toNat = some ⟨d, p⟩ ∧ ∀ a, a ≠ s.fifoWr.toNat → m.read a = s.fifoMem.read a

/-- What `Reset` leaves in every element R50 gives a value, and that it sends nothing (R50, R350) and leaves the
parameters (R7). -/
def Obligations.ResetSetsTheStatedValues : Prop :=
  ∀ (s : State) (r : List Move), s.sched = .reset :: r →
    ∃ t, step s = .next t ∧ t.sched = r ∧ t.out = s.out ∧ t.fifoRd = 0#15 ∧ t.fifoWr = 0#15 ∧ t.fifoCount = 0#16 ∧
      t.fsm = .scan ∧ t.argcnt = 0#4 ∧ t.remaining = 0#33 ∧ t.blkRem = 0#5 ∧ t.blkPos = 0#5 ∧ t.blkCommon = false ∧
      t.pxHalf = false ∧ t.dirty = true ∧ t.bootPending = true ∧ t.params = s.params

/-- A scheduled Engine move is the step the Engine takes by itself: the Engine looks at no other agent's moves
(R80). -/
def Obligations.ScheduledEngineMoveIsTheEngineStep : Prop :=
  ∀ (s t : State) (r : List Move), step { s with sched := [] } = .next t →
    step { s with sched := .engine :: r } = .next { t with sched := r }

/-- A bulk-OUT packet is its bytes in order, the first tagged (R41): the Producer's moves for it append exactly
those entries while there is room, and an empty packet appends none. -/
def Obligations.PacketArrivesInOrder : Prop :=
  ∀ (s : State) (bs : List Byte) (r : List Move), RingInv s → s.sched = packetMoves bs ++ r →
    s.fifoCount.toNat + bs.length ≤ 32768 →
    ∃ t, Host.Core.run Sys2Proof.core bs.length s = .next t ∧ t.sched = r ∧ t.out = s.out ∧
      t.fifoContents = s.fifoContents ++ bs.mapIdx fun k b => some ⟨b, decide (k = 0)⟩

/-- FIFO law and loss law (R77, R78): for every interleaving of stores and pops, the ring buffer returns what a queue
returns that loses its oldest entry to a store that finds 32768. -/
def Obligations.RingBufferIsAQueue : Prop :=
  ∀ (ops : List QueueOp) (s : State) (q : List FifoEntry), RingInv s → s.fifoContents = q.map some →
    ringPops s ops = queuePops q ops

/-- While there is room and the Engine has something to do, a store and an Engine step lead to the same state in
either order (R80, R86). -/
def Obligations.StoreCommutesWithEngineStep : Prop :=
  ∀ (s t : State) (d : Byte) (p : Bool), s.sched = [] → (s.bootPending = true ∨ s.fifoCount ≠ 0#16) →
    s.fifoCount.toNat < 32768 → s.fifoWr = s.fifoRd + s.fifoCount.setWidth 15 → step s = .next t →
    ∃ s' t', fifoStore s d p = .next s' ∧ fifoStore t d p = .next t' ∧ step s' = .next t'

/-! ## Invariants and rules of the whole machine -/

/-- The reset state satisfies the invariant. -/
def Obligations.ResetSatisfiesTheInvariant : Prop := Inv State.reset

/-- From every state with the invariant the machine takes a next step, never a fault or a refusal, and keeps the
invariant (R35, R153, R193, R194, R300). -/
def Obligations.EveryStepSucceedsAndKeepsTheInvariant : Prop :=
  ∀ s : State, Inv s → ∃ t, step s = .next t ∧ Inv t

/-- Every step keeps the canonical form of the ring buffer storage (the model's own form, log 4). -/
def Obligations.StepKeepsTheStorageCanonical : Prop :=
  ∀ s t : State, s.fifoMem.wf = true → step s = .next t → t.fifoMem.wf = true

/-- The Engine never writes the storage or the write index; it touches the ring buffer only by popping one entry
(R82, R140). -/
def Obligations.EngineTouchesTheRingOnlyByPopping : Prop :=
  ∀ s t : State, s.sched = [] → step s = .next t →
    t.fifoMem = s.fifoMem ∧ t.fifoWr = s.fifoWr ∧
    ((t.fifoRd = s.fifoRd ∧ t.fifoCount = s.fifoCount) ∨
      (s.fifoCount ≠ 0#16 ∧ t.fifoRd = s.fifoRd + 1#15 ∧ t.fifoCount = s.fifoCount - 1#16))

/-- The parameters are fixed for the life of the hardware (R7): no step and no instruction changes them. That State
holds them is the model's (log 9). -/
def Obligations.ParametersNeverChange : Prop :=
  (∀ s t : State, step s = .next t → t.params = s.params) ∧
  (∀ (i : Instr) (s t : State), exec i s = .next t → t.params = s.params)

/-- DIRTY changes without a reset only from 1 to 0, and only when a command with CLEAR_DIRTY completes, whose status
packet reports the 0 (R280, R281, R286). -/
def Obligations.DirtyIsClearedOnlyByACompletion : Prop :=
  ∀ s t : State, (∀ r, s.sched ≠ .reset :: r) → step s = .next t →
    t.dirty = s.dirty ∨
    (s.dirty = true ∧ t.dirty = false ∧ t.hdr.getLsbD 6 = true ∧ t.fsm = .scan ∧
      ∃ ts, t.out = s.out ++ ts ++ [.statusOut (statusOf false)])

/-- What one step sends (R85, R285, R288, R308): at most one diagnostic event; at most one status packet, and that
last; an event other than `DIAG_COPY_OOM` comes with no other transaction. -/
def Obligations.OneStepReportsAtMostOnce : Prop :=
  ∀ s t : State, step s = .next t →
    ∃ ts, t.out = s.out ++ ts ∧ (ts.filter Transaction.isDiag).length ≤ 1 ∧
      (∀ us p vs, ts = us ++ .statusOut p :: vs → vs = [] ∧ ∀ u ∈ us, u.isStatus = false) ∧
      (∀ c info, .diag c info ∈ ts → c ≠ 0x05#8 → ts = [.diag c info]) ∧
      (∀ info, .diag 0x05#8 info ∈ ts → ∃ p, ts = [.diag 0x05#8 info, .statusOut p])

/-- The framer's transitions (R159, R161): from HEADER and PAYLOAD no byte begins another frame, and PAYLOAD is left
only by a completion or a synchronization error. -/
def Obligations.FramerFollowsItsTransitionTable : Prop :=
  ∀ (s t : State) (e : FifoEntry), Ready s e → step s = .next t →
    (s.fsm = .scan → t.fsm = .scan ∨ t.fsm = .discard ∨ t.fsm = .header) ∧
    (s.fsm = .discard → (t.fsm = .discard ∨ t.fsm = .scan) ∧ t.hdr = s.hdr ∧ t.out = s.out) ∧
    (s.fsm = .header → (t.fsm = .header ∨ t.fsm = .scan ∨ t.fsm = .payload) ∧ t.hdr = s.hdr) ∧
    (s.fsm = .payload → t.hdr = s.hdr ∧ (t.fsm = .payload ∨
      (t.fsm = .scan ∧ t.remaining = 0#33 ∧
        ((∃ ts, t.out = s.out ++ ts ++ [.statusOut (statusOf t.dirty)]) ∨
          t.out = s.out ++ [.diag 0x03#8 [s.hdr &&& 0x3F#8, e.data]]))))

/-- An instruction with the head entry its step pops always completes its step; without one, and only then, it stops,
and STATUS, which pops nothing, never does. No step is refused (R75, R76, R300). -/
def Obligations.InstructionsStopOnlyWithoutAnEntry : Prop :=
  (∀ (i : Instr) (s : State), (∃ t, exec i s = .next t) ↔ (i = .status ∨ s.fifoHead?.isSome = true)) ∧
  (∀ (i : Instr) (s : State), i ≠ .status → s.fifoHead? = none → exec i s = .fault .noEntry) ∧
  (∀ (s : State) (r : Refusal), step s ≠ .refused r)

/-- Progress (R160): with n entries and no Producer step the Engine reaches an empty ring buffer within 2n + 1 steps,
and no two consecutive Engine steps both leave a ring buffer that holds an entry unchanged. -/
def Obligations.EngineDrainsTheRingBuffer : Prop :=
  (∀ s : State, Inv s → s.sched = [] →
    ∃ t, Host.Core.run Sys2Proof.core (2 * s.fifoCount.toNat + 1) s = .next t ∧ t.fifoCount = 0#16) ∧
  (∀ s t u : State, Inv s → s.sched = [] → s.bootPending = false → s.fifoCount ≠ 0#16 →
    step s = .next t → step t = .next u → u.fifoCount.toNat < s.fifoCount.toNat)

/-! ## Laws of the payloads, of resynchronization and of the environment -/

/-- BITBLT_RLE round trip (R196): blocks whose pixel counts sum to the rectangle, in any packets, push exactly their
pixels in order, and the command completes on the last byte; what follows is left in the ring buffer (R197). -/
def Obligations.RlePayloadPushesItsPixels : Prop :=
  ∀ (clear : Bool) (x y w h : Coord) (blocks : List RleBlock) (es : List FifoEntry) (rest : List (Option FifoEntry))
    (s : State) (e : FifoEntry),
    s.sched = [] → s.bootPending = false → s.params.valid = true →
    s.fifoContents = some e :: (es.map some ++ rest) → blocks ≠ [] → blocks.all RleBlock.valid = true →
    (blocks.map fun b => b.pixels.length).sum = w.toNat * h.toNat →
    payloadOf es = blocks.flatMap RleBlock.bytes → wellPacketed s.params s.params.opcBitbltRle es = true →
    ∃ t u, exec (.bitbltRle clear x y w h) s = .next t ∧ Host.Core.run Sys2Proof.core es.length t = .next u ∧
      u.out = s.out ++ [.setWindow x y w h] ++ (blocks.flatMap RleBlock.pixels).map .pushPixel
        ++ [.statusOut (statusOf (s.dirty && !clear))] ∧
      u.fsm = .scan ∧ u.remaining = 0#33 ∧ u.dirty = (s.dirty && !clear) ∧ u.fifoContents = rest

/-- BITBLT (R182, R183, R253): the payload bytes of the rectangle's pixels, in any packets, push exactly those pixels
in order, and the command completes on the last byte. -/
def Obligations.RawPayloadPushesItsPixels : Prop :=
  ∀ (clear : Bool) (x y w h : Coord) (px : List Pixel) (es : List FifoEntry) (rest : List (Option FifoEntry))
    (s : State) (e : FifoEntry),
    s.sched = [] → s.bootPending = false → s.fifoContents = some e :: (es.map some ++ rest) →
    px ≠ [] → px.length = w.toNat * h.toNat →
    payloadOf es = pixelBytes px → wellPacketed s.params s.params.opcBitblt es = true →
    ∃ t u, exec (.bitblt clear x y w h) s = .next t ∧ Host.Core.run Sys2Proof.core es.length t = .next u ∧
      u.out = s.out ++ [.setWindow x y w h] ++ px.map .pushPixel ++ [.statusOut (statusOf (s.dirty && !clear))] ∧
      u.fsm = .scan ∧ u.remaining = 0#33 ∧ u.pxHalf = false ∧ u.dirty = (s.dirty && !clear) ∧ u.fifoContents = rest

/-- Resynchronization (R360): packets of garbage, each beginning with a byte with bit 7 = 0, and then a packet that is
a FILL: exactly the FILL is applied, and besides it there are framing events only. -/
def Obligations.GarbagePacketsThenFillAppliesExactlyTheFill : Prop :=
  ∀ (s : State) (garbage : List (List Byte)) (clear : Bool) (color : Pixel),
    s.sched = [] → s.bootPending = false → s.params.valid = true → (s.fsm = .scan ∨ s.fsm = .discard) →
    (∀ g ∈ garbage, ∃ b bs, g = b :: bs ∧ b.getLsbD 7 = false) →
    s.fifoContents = (garbage.flatMap packetEntries
      ++ packetEntries [headerByte s.params.opcFill clear, lo color, hi color]).map some →
    ∃ k t, Host.Core.run Sys2Proof.core k s = .next t ∧ t.fifoContents = [] ∧ t.fsm = .scan ∧
      t.dirty = (s.dirty && !clear) ∧
      ∃ ds, t.out = s.out ++ ds ++ [.fillScreen color, .statusOut (statusOf (s.dirty && !clear))] ∧
        ∀ d ∈ ds, ∃ b, d = .diag 0x01#8 [b]

/-- Abandoning a BitBlt (R356): a packet that is a NOP header ends it with a synchronization error and then runs as a
NOP. -/
def Obligations.NopPacketAbandonsABitBlt : Prop :=
  ∀ (s : State) (e : FifoEntry), Ready s e → s.params.valid = true → s.fsm = .payload →
    e = ⟨headerByte s.params.opcNop false, true⟩ →
    (s.hdr.setWidth 6 = s.params.opcBitblt ∨ s.hdr.setWidth 6 = s.params.opcBitbltRle) →
    let r : State := { received s e.data s.args 0#4 with
      out := s.out ++ [.diag 0x03#8 [s.hdr &&& 0x3F#8, e.data]], remaining := 0#33, fsm := .scan }
    Host.Core.run Sys2Proof.core 2 s = .next (if s.params.nopReports then completed r false [] else r)

/-- Overlap (R248): on a sink that keeps the contract of R216 and R217 and answers with its own pixels, the
destination receives the source's pixels as they were, and every other pixel is left as it was. The sink is the
model's unbounded plane: what a sink does with coordinates beyond its panel is open, and the plane is the model's
choice (R219; log 17). -/
def Obligations.CopyHasSnapshotSemantics : Prop :=
  ∀ (m : Sink) (s : State) (sx sy dx dy w h : Coord),
    ∃ ts, (s.copyRect (m.read sx sy w h) sx sy dx dy w h).out = s.out ++ ts ∧
      ∀ x y : Nat, (m.applyAll ts).pixels x y =
        if dx.toNat ≤ x ∧ x < dx.toNat + w.toNat ∧ dy.toNat ≤ y ∧ y < dy.toNat + h.toNat
        then m.pixels (sx.toNat + (x - dx.toNat)) (sy.toNat + (y - dy.toNat)) else m.pixels x y

/-- The transport's answers (R42, R284), whatever they are: a step offers no packet, and the host has received what it
had; or it offers one, the boot step or a completion, that reports the DIRTY it leaves, and the host receives that one
if it is accepted and nothing otherwise. So a dropped packet is neither queued nor retried. Over a whole run the host
receives packets among those offered and in their order, all of them when all are accepted. That the answers are no
part of the state is DEDUCED (log 7). -/
def Obligations.DroppedStatusPacketsAreGone : Prop :=
  (∀ (accepted : Nat → Bool) (s t : State), step s = .next t →
    (statusCount t.out = statusCount s.out ∧ hostReceives accepted 0 t.out = hostReceives accepted 0 s.out) ∨
    ((s.bootPending = true ∨ t.fsm = .scan) ∧ statusCount t.out = statusCount s.out + 1 ∧
      hostReceives accepted 0 t.out
        = hostReceives accepted 0 s.out ++ (if accepted (statusCount s.out) then [statusOf t.dirty] else []))) ∧
  (∀ (accepted : Nat → Bool) (k n : Nat) (s t : State), Host.Core.run Sys2Proof.core n s = .next t →
    (hostReceives accepted k t.out).Sublist (hostReceives (fun _ => true) 0 t.out) ∧
    ∃ ts, t.out = s.out ++ ts ∧ hostReceives accepted k t.out
      = hostReceives accepted k s.out ++ hostReceives accepted (k + statusCount s.out) ts) ∧
  (∀ (k : Nat) (xs : List Transaction), hostReceives (fun _ => true) k xs = xs.filterMap (fun t => match t with
      | .statusOut p => some p
      | _ => none))
end

