-- ==== Sys2Proof/Laws/Encoding.lean ====
section
/-! SUPPORT. Byte order and bit fields: each helper of the decoder undoes the encoder's. -/

namespace Sys2Proof

/-- A 16-bit field read from its two wire bytes (R70, R110). -/
@[simp] theorem le16_fieldBytes (v : BitVec 16) : le16 (loByte v) (hiByte v) = v := by
  ext i hi
  simp only [le16, loByte, hiByte, BitVec.getElem_or, BitVec.getElem_shiftLeft, BitVec.getElem_setWidth,
    BitVec.getLsbD_setWidth, BitVec.getLsbD_ushiftRight]
  by_cases h : i < 8
  · simp [h, BitVec.getLsbD_eq_getElem hi]
  · have h8 : 8 + (i - 8) = i := by omega
    have hlt : i - 8 < 8 := by omega
    simp [h, h8, hlt, BitVec.getLsbD_eq_getElem hi]

@[simp] theorem fieldBytes_length (v : BitVec 16) : (fieldBytes v).length = 2 := rfl

@[simp] theorem frameStart_mkHeader (s c : Bool) (op : BitVec 6) : frameStart (mkHeader s c op) = s := by
  revert s c op; decide

@[simp] theorem clearDirty_mkHeader (s c : Bool) (op : BitVec 6) : clearDirty (mkHeader s c op) = c := by
  revert s c op; decide

@[simp] theorem opcodeOf_mkHeader (s c : Bool) (op : BitVec 6) : opcodeOf (mkHeader s c op) = op := by
  revert s c op; decide

/-- A header byte is its three fields (R100). -/
@[simp] theorem mkHeader_fields (h : Byte) : mkHeader (frameStart h) (clearDirty h) (opcodeOf h) = h := by
  revert h; decide

/-- An RLE block header byte reads as the mode, ignored bits and size it was made of (R116). -/
@[simp] theorem decodeRle_mkRleHeader (common : Bool) (ig : BitVec 4) (sz : BitVec 3) :
    decodeRle (mkRleHeader common ig sz) = if common then .rleCommon ig sz else .rleLiteral ig sz := by
  revert common ig sz; decide

/-- SCAN takes a header byte with too few argument bytes as incomplete (R147). -/
theorem decode_scan_short {p : Config.Params} {h : Byte} {as : List Byte} (hs : frameStart h = true)
    (hl : as.length < need p (opcodeOf h)) :
    decode p .scan (h :: as) = .error (.incomplete as.length (need p (opcodeOf h))) := by
  simp [decode, hs, hl]

/-- SCAN reads a header byte with enough argument bytes as its command, and leaves the bytes after it (R104, R121). -/
theorem decode_scan_whole {p : Config.Params} {h : Byte} {as : List Byte} (hs : frameStart h = true)
    (hl : need p (opcodeOf h) ≤ as.length) :
    decode p .scan (h :: as) = .ok (frameOf p (clearDirty h) (opcodeOf h) as, as.drop (need p (opcodeOf h))) := by
  simp [decode, hs, Nat.not_lt.2 hl]

/-- A byte with bit 7 = 0 begins no frame (R123). -/
theorem decode_scan_nonFrame {p : Config.Params} {h : Byte} {as : List Byte} (hs : frameStart h = false) :
    decode p .scan (h :: as) = .ok (.nonFrame h, as) := by
  simp [decode, hs]

/-- No opcode takes more than the 12 argument registers (R24, R104). -/
theorem need_le_twelve (p : Config.Params) (op : BitVec 6) : need p op ≤ 12 := by
  unfold need
  split_ifs <;> omega

/-- The six opcodes of a valid setting are pairwise different. -/
theorem Config.Params.valid_iff {p : Config.Params} : p.valid = true ↔ p.opcodes.Nodup := by
  simp [Config.Params.valid]

/-- An opcode that is none of the six takes no argument bytes (R104, R150). -/
theorem need_unknown {p : Config.Params} {op : BitVec 6} (h : op ∉ p.opcodes) : need p op = 0 := by
  simp only [Config.Params.opcodes, Config.Params.withArguments, List.mem_cons, List.not_mem_nil, or_false,
    not_or] at h
  simp [need, h]

/-- An opcode that is none of the six is read as an unknown one (R127). -/
theorem frameOf_unknown {p : Config.Params} {op : BitVec 6} (c : Bool) (as : List Byte) (h : op ∉ p.opcodes) :
    frameOf p c op as = unknownRow c op := by
  simp only [Config.Params.opcodes, Config.Params.withArguments, List.mem_cons, List.not_mem_nil, or_false,
    not_or] at h
  simp [frameOf, h]

/-- Which continuation bytes are read as which row (R113, R127). -/
theorem decodeCont_some {p : Config.Params} {hdr d : Byte} {i : Instr} (h : decodeCont p hdr d = some i) :
    contMatches p.contMatch d hdr = true ∧
      ((opcodeOf d = p.opcBitblt ∧ i = .contBitblt (frameStart d) (clearDirty d)) ∨
        (opcodeOf d = p.opcBitbltRle ∧ i = .contBitbltRle (frameStart d) (clearDirty d))) := by
  unfold decodeCont at h
  split_ifs at h with hm h1 h2
  · exact ⟨hm, .inl ⟨h1, by injection h with h; exact h.symm⟩⟩
  · exact ⟨hm, .inr ⟨h2, by injection h with h; exact h.symm⟩⟩

end Sys2Proof
end

