-- ==== Sys2Proof/Laws/Memory.lean ====
section
/-! SUPPORT. The ring buffer storage: a read after a write, and the canonical form kept by every write. -/

namespace Sys2Proof.Machine

@[simp] theorem Memory.read_nil (a : Nat) : Memory.read [] a = none := rfl

theorem Memory.read_cons (k : Nat) (e : FifoEntry) (m : Memory) (a : Nat) :
    Memory.read ((k, e) :: m) a = if k = a then some e else Memory.read m a := rfl

theorem Memory.write_cons (k : Nat) (f : FifoEntry) (m : Memory) (a : Nat) (e : FifoEntry) :
    Memory.write ((k, f) :: m) a e =
      if a < k then (a, e) :: (k, f) :: m else if a = k then (a, e) :: m else (k, f) :: Memory.write m a e := rfl

/-- A slot reads as what was last written to it. -/
theorem Memory.read_write_same (m : Memory) (a : Nat) (e : FifoEntry) : (m.write a e).read a = some e := by
  induction m with
  | nil => simp [Memory.write, Memory.read]
  | cons p m ih =>
    obtain ⟨k, f⟩ := p
    rw [Memory.write_cons]
    split
    · simp [Memory.read]
    · split
      · simp [Memory.read]
      · rename_i _ hne
        rw [Memory.read_cons, if_neg (fun h => hne h.symm), ih]

/-- A write leaves every other slot as it was. -/
theorem Memory.read_write_other (m : Memory) {a b : Nat} (e : FifoEntry) (h : b ≠ a) :
    (m.write a e).read b = m.read b := by
  induction m with
  | nil => simp [Memory.write, Memory.read, h.symm]
  | cons p m ih =>
    obtain ⟨k, f⟩ := p
    rw [Memory.write_cons]
    split
    · rw [Memory.read_cons, if_neg h.symm]
    · split
      · rename_i _ hk
        subst hk
        rw [Memory.read_cons, Memory.read_cons, if_neg h.symm, if_neg h.symm]
      · rw [Memory.read_cons, Memory.read_cons, ih]

theorem Memory.wf_cons {k : Nat} {e : FifoEntry} {m : Memory} :
    Memory.wf ((k, e) :: m) = true ↔ k < 32768 ∧ (∀ p ∈ m, k < p.1) ∧ m.wf = true := by
  simp [Memory.wf, and_assoc]

/-- Every slot of a written list is the one written or was there before. -/
theorem Memory.mem_write {m : Memory} {a : Nat} {e : FifoEntry} {p : Nat × FifoEntry} (h : p ∈ m.write a e) :
    p = (a, e) ∨ p ∈ m := by
  induction m with
  | nil => simpa [Memory.write] using h
  | cons q m ih =>
    obtain ⟨k, f⟩ := q
    rw [Memory.write_cons] at h
    split at h
    · simpa using h
    · split at h
      · rcases List.mem_cons.1 h with h | h
        · exact .inl h
        · exact .inr (List.mem_cons_of_mem _ h)
      · rcases List.mem_cons.1 h with h | h
        · exact .inr (h ▸ List.mem_cons_self ..)
        · exact (ih h).imp_right (List.mem_cons_of_mem _)

/-- A write to one of the 32768 slots keeps the canonical form. -/
theorem Memory.write_wf {m : Memory} {a : Nat} (e : FifoEntry) (ha : a < 32768) (h : m.wf = true) :
    (m.write a e).wf = true := by
  induction m with
  | nil => exact Memory.wf_cons.2 ⟨ha, by simp, rfl⟩
  | cons p m ih =>
    obtain ⟨k, f⟩ := p
    obtain ⟨hk, hlt, hm⟩ := Memory.wf_cons.1 h
    rw [Memory.write_cons]
    split
    · rename_i hak
      refine Memory.wf_cons.2 ⟨ha, fun p hp => ?_, h⟩
      rcases List.mem_cons.1 hp with rfl | hp
      · exact hak
      · exact hak.trans (hlt p hp)
    · split
      · rename_i _ hak
        subst hak
        exact Memory.wf_cons.2 ⟨ha, hlt, hm⟩
      · rename_i h1 h2
        refine Memory.wf_cons.2 ⟨hk, fun p hp => ?_, ih hm⟩
        rcases Memory.mem_write hp with rfl | hp
        · show k < a
          omega
        · exact hlt p hp

/-- The reset memory has the canonical form. -/
theorem State.reset_fifoMem_wf : State.reset.fifoMem.wf = true := rfl

end Sys2Proof.Machine
end

