-- ==== Sys2Proof/Laws/State.lean ====
section
/-! SUPPORT. One lemma per field per named update of the state, each true by `rfl`, so that no later proof unfolds a
record update. -/

namespace Sys2Proof.Machine

/-! ### `FifoPop` (R75) -/
@[simp] theorem State.popped_fsm (s : State) : s.popped.fsm = s.fsm := rfl
@[simp] theorem State.popped_hdr (s : State) : s.popped.hdr = s.hdr := rfl
@[simp] theorem State.popped_args (s : State) : s.popped.args = s.args := rfl
@[simp] theorem State.popped_argcnt (s : State) : s.popped.argcnt = s.argcnt := rfl
@[simp] theorem State.popped_remaining (s : State) : s.popped.remaining = s.remaining := rfl
@[simp] theorem State.popped_blkRem (s : State) : s.popped.blkRem = s.blkRem := rfl
@[simp] theorem State.popped_blkPos (s : State) : s.popped.blkPos = s.blkPos := rfl
@[simp] theorem State.popped_blkCommon (s : State) : s.popped.blkCommon = s.blkCommon := rfl
@[simp] theorem State.popped_colorLo (s : State) : s.popped.colorLo = s.colorLo := rfl
@[simp] theorem State.popped_pxHalf (s : State) : s.popped.pxHalf = s.pxHalf := rfl
@[simp] theorem State.popped_pxLo (s : State) : s.popped.pxLo = s.pxLo := rfl
@[simp] theorem State.popped_copybuf (s : State) : s.popped.copybuf = s.copybuf := rfl
@[simp] theorem State.popped_dirty (s : State) : s.popped.dirty = s.dirty := rfl
@[simp] theorem State.popped_bootPending (s : State) : s.popped.bootPending = s.bootPending := rfl
@[simp] theorem State.popped_fifoMem (s : State) : s.popped.fifoMem = s.fifoMem := rfl
@[simp] theorem State.popped_fifoRd (s : State) : s.popped.fifoRd = s.fifoRd + 1#15 := rfl
@[simp] theorem State.popped_fifoWr (s : State) : s.popped.fifoWr = s.fifoWr := rfl
@[simp] theorem State.popped_fifoCount (s : State) : s.popped.fifoCount = s.fifoCount - 1#16 := rfl
@[simp] theorem State.popped_out (s : State) : s.popped.out = s.out := rfl
@[simp] theorem State.popped_sched (s : State) : s.popped.sched = s.sched := rfl
@[simp] theorem State.popped_freeIx (s : State) : s.popped.freeIx = s.freeIx := rfl
@[simp] theorem State.popped_params (s : State) : s.popped.params = s.params := rfl

/-! ### a transaction (R85) -/
@[simp] theorem State.emit_fsm (s : State) (t : Transaction) : (s.emit t).fsm = s.fsm := rfl
@[simp] theorem State.emit_hdr (s : State) (t : Transaction) : (s.emit t).hdr = s.hdr := rfl
@[simp] theorem State.emit_args (s : State) (t : Transaction) : (s.emit t).args = s.args := rfl
@[simp] theorem State.emit_argcnt (s : State) (t : Transaction) : (s.emit t).argcnt = s.argcnt := rfl
@[simp] theorem State.emit_remaining (s : State) (t : Transaction) : (s.emit t).remaining = s.remaining := rfl
@[simp] theorem State.emit_blkRem (s : State) (t : Transaction) : (s.emit t).blkRem = s.blkRem := rfl
@[simp] theorem State.emit_blkPos (s : State) (t : Transaction) : (s.emit t).blkPos = s.blkPos := rfl
@[simp] theorem State.emit_blkCommon (s : State) (t : Transaction) : (s.emit t).blkCommon = s.blkCommon := rfl
@[simp] theorem State.emit_colorLo (s : State) (t : Transaction) : (s.emit t).colorLo = s.colorLo := rfl
@[simp] theorem State.emit_pxHalf (s : State) (t : Transaction) : (s.emit t).pxHalf = s.pxHalf := rfl
@[simp] theorem State.emit_pxLo (s : State) (t : Transaction) : (s.emit t).pxLo = s.pxLo := rfl
@[simp] theorem State.emit_copybuf (s : State) (t : Transaction) : (s.emit t).copybuf = s.copybuf := rfl
@[simp] theorem State.emit_dirty (s : State) (t : Transaction) : (s.emit t).dirty = s.dirty := rfl
@[simp] theorem State.emit_bootPending (s : State) (t : Transaction) : (s.emit t).bootPending = s.bootPending := rfl
@[simp] theorem State.emit_fifoMem (s : State) (t : Transaction) : (s.emit t).fifoMem = s.fifoMem := rfl
@[simp] theorem State.emit_fifoRd (s : State) (t : Transaction) : (s.emit t).fifoRd = s.fifoRd := rfl
@[simp] theorem State.emit_fifoWr (s : State) (t : Transaction) : (s.emit t).fifoWr = s.fifoWr := rfl
@[simp] theorem State.emit_fifoCount (s : State) (t : Transaction) : (s.emit t).fifoCount = s.fifoCount := rfl
@[simp] theorem State.emit_out (s : State) (t : Transaction) : (s.emit t).out = s.out ++ [t] := rfl
@[simp] theorem State.emit_sched (s : State) (t : Transaction) : (s.emit t).sched = s.sched := rfl
@[simp] theorem State.emit_freeIx (s : State) (t : Transaction) : (s.emit t).freeIx = s.freeIx := rfl
@[simp] theorem State.emit_params (s : State) (t : Transaction) : (s.emit t).params = s.params := rfl

/-! ### transactions (R85) -/
@[simp] theorem State.emits_fsm (s : State) (ts : List Transaction) : (s.emits ts).fsm = s.fsm := rfl
@[simp] theorem State.emits_hdr (s : State) (ts : List Transaction) : (s.emits ts).hdr = s.hdr := rfl
@[simp] theorem State.emits_args (s : State) (ts : List Transaction) : (s.emits ts).args = s.args := rfl
@[simp] theorem State.emits_argcnt (s : State) (ts : List Transaction) : (s.emits ts).argcnt = s.argcnt := rfl
@[simp] theorem State.emits_remaining (s : State) (ts : List Transaction) : (s.emits ts).remaining = s.remaining := rfl
@[simp] theorem State.emits_blkRem (s : State) (ts : List Transaction) : (s.emits ts).blkRem = s.blkRem := rfl
@[simp] theorem State.emits_blkPos (s : State) (ts : List Transaction) : (s.emits ts).blkPos = s.blkPos := rfl
@[simp] theorem State.emits_blkCommon (s : State) (ts : List Transaction) : (s.emits ts).blkCommon = s.blkCommon := rfl
@[simp] theorem State.emits_colorLo (s : State) (ts : List Transaction) : (s.emits ts).colorLo = s.colorLo := rfl
@[simp] theorem State.emits_pxHalf (s : State) (ts : List Transaction) : (s.emits ts).pxHalf = s.pxHalf := rfl
@[simp] theorem State.emits_pxLo (s : State) (ts : List Transaction) : (s.emits ts).pxLo = s.pxLo := rfl
@[simp] theorem State.emits_copybuf (s : State) (ts : List Transaction) : (s.emits ts).copybuf = s.copybuf := rfl
@[simp] theorem State.emits_dirty (s : State) (ts : List Transaction) : (s.emits ts).dirty = s.dirty := rfl
@[simp] theorem State.emits_bootPending (s : State) (ts : List Transaction) : (s.emits ts).bootPending = s.bootPending := rfl
@[simp] theorem State.emits_fifoMem (s : State) (ts : List Transaction) : (s.emits ts).fifoMem = s.fifoMem := rfl
@[simp] theorem State.emits_fifoRd (s : State) (ts : List Transaction) : (s.emits ts).fifoRd = s.fifoRd := rfl
@[simp] theorem State.emits_fifoWr (s : State) (ts : List Transaction) : (s.emits ts).fifoWr = s.fifoWr := rfl
@[simp] theorem State.emits_fifoCount (s : State) (ts : List Transaction) : (s.emits ts).fifoCount = s.fifoCount := rfl
@[simp] theorem State.emits_out (s : State) (ts : List Transaction) : (s.emits ts).out = s.out ++ ts := rfl
@[simp] theorem State.emits_sched (s : State) (ts : List Transaction) : (s.emits ts).sched = s.sched := rfl
@[simp] theorem State.emits_freeIx (s : State) (ts : List Transaction) : (s.emits ts).freeIx = s.freeIx := rfl
@[simp] theorem State.emits_params (s : State) (ts : List Transaction) : (s.emits ts).params = s.params := rfl

/-! ### `raise Diag` (R301) -/
@[simp] theorem State.raiseDiag_fsm (s : State) (code : Byte) (info : List Byte) : (s.raiseDiag code info).fsm = s.fsm := rfl
@[simp] theorem State.raiseDiag_hdr (s : State) (code : Byte) (info : List Byte) : (s.raiseDiag code info).hdr = s.hdr := rfl
@[simp] theorem State.raiseDiag_args (s : State) (code : Byte) (info : List Byte) : (s.raiseDiag code info).args = s.args := rfl
@[simp] theorem State.raiseDiag_argcnt (s : State) (code : Byte) (info : List Byte) : (s.raiseDiag code info).argcnt = s.argcnt := rfl
@[simp] theorem State.raiseDiag_remaining (s : State) (code : Byte) (info : List Byte) : (s.raiseDiag code info).remaining = s.remaining := rfl
@[simp] theorem State.raiseDiag_blkRem (s : State) (code : Byte) (info : List Byte) : (s.raiseDiag code info).blkRem = s.blkRem := rfl
@[simp] theorem State.raiseDiag_blkPos (s : State) (code : Byte) (info : List Byte) : (s.raiseDiag code info).blkPos = s.blkPos := rfl
@[simp] theorem State.raiseDiag_blkCommon (s : State) (code : Byte) (info : List Byte) : (s.raiseDiag code info).blkCommon = s.blkCommon := rfl
@[simp] theorem State.raiseDiag_colorLo (s : State) (code : Byte) (info : List Byte) : (s.raiseDiag code info).colorLo = s.colorLo := rfl
@[simp] theorem State.raiseDiag_pxHalf (s : State) (code : Byte) (info : List Byte) : (s.raiseDiag code info).pxHalf = s.pxHalf := rfl
@[simp] theorem State.raiseDiag_pxLo (s : State) (code : Byte) (info : List Byte) : (s.raiseDiag code info).pxLo = s.pxLo := rfl
@[simp] theorem State.raiseDiag_copybuf (s : State) (code : Byte) (info : List Byte) : (s.raiseDiag code info).copybuf = s.copybuf := rfl
@[simp] theorem State.raiseDiag_dirty (s : State) (code : Byte) (info : List Byte) : (s.raiseDiag code info).dirty = s.dirty := rfl
@[simp] theorem State.raiseDiag_bootPending (s : State) (code : Byte) (info : List Byte) : (s.raiseDiag code info).bootPending = s.bootPending := rfl
@[simp] theorem State.raiseDiag_fifoMem (s : State) (code : Byte) (info : List Byte) : (s.raiseDiag code info).fifoMem = s.fifoMem := rfl
@[simp] theorem State.raiseDiag_fifoRd (s : State) (code : Byte) (info : List Byte) : (s.raiseDiag code info).fifoRd = s.fifoRd := rfl
@[simp] theorem State.raiseDiag_fifoWr (s : State) (code : Byte) (info : List Byte) : (s.raiseDiag code info).fifoWr = s.fifoWr := rfl
@[simp] theorem State.raiseDiag_fifoCount (s : State) (code : Byte) (info : List Byte) : (s.raiseDiag code info).fifoCount = s.fifoCount := rfl
@[simp] theorem State.raiseDiag_out (s : State) (code : Byte) (info : List Byte) : (s.raiseDiag code info).out = s.out ++ [.diag code info] := rfl
@[simp] theorem State.raiseDiag_sched (s : State) (code : Byte) (info : List Byte) : (s.raiseDiag code info).sched = s.sched := rfl
@[simp] theorem State.raiseDiag_freeIx (s : State) (code : Byte) (info : List Byte) : (s.raiseDiag code info).freeIx = s.freeIx := rfl
@[simp] theorem State.raiseDiag_params (s : State) (code : Byte) (info : List Byte) : (s.raiseDiag code info).params = s.params := rfl

/-! ### `SendStatus` (R284) -/
@[simp] theorem State.sendStatus_fsm (s : State) : s.sendStatus.fsm = s.fsm := rfl
@[simp] theorem State.sendStatus_hdr (s : State) : s.sendStatus.hdr = s.hdr := rfl
@[simp] theorem State.sendStatus_args (s : State) : s.sendStatus.args = s.args := rfl
@[simp] theorem State.sendStatus_argcnt (s : State) : s.sendStatus.argcnt = s.argcnt := rfl
@[simp] theorem State.sendStatus_remaining (s : State) : s.sendStatus.remaining = s.remaining := rfl
@[simp] theorem State.sendStatus_blkRem (s : State) : s.sendStatus.blkRem = s.blkRem := rfl
@[simp] theorem State.sendStatus_blkPos (s : State) : s.sendStatus.blkPos = s.blkPos := rfl
@[simp] theorem State.sendStatus_blkCommon (s : State) : s.sendStatus.blkCommon = s.blkCommon := rfl
@[simp] theorem State.sendStatus_colorLo (s : State) : s.sendStatus.colorLo = s.colorLo := rfl
@[simp] theorem State.sendStatus_pxHalf (s : State) : s.sendStatus.pxHalf = s.pxHalf := rfl
@[simp] theorem State.sendStatus_pxLo (s : State) : s.sendStatus.pxLo = s.pxLo := rfl
@[simp] theorem State.sendStatus_copybuf (s : State) : s.sendStatus.copybuf = s.copybuf := rfl
@[simp] theorem State.sendStatus_dirty (s : State) : s.sendStatus.dirty = s.dirty := rfl
@[simp] theorem State.sendStatus_bootPending (s : State) : s.sendStatus.bootPending = s.bootPending := rfl
@[simp] theorem State.sendStatus_fifoMem (s : State) : s.sendStatus.fifoMem = s.fifoMem := rfl
@[simp] theorem State.sendStatus_fifoRd (s : State) : s.sendStatus.fifoRd = s.fifoRd := rfl
@[simp] theorem State.sendStatus_fifoWr (s : State) : s.sendStatus.fifoWr = s.fifoWr := rfl
@[simp] theorem State.sendStatus_fifoCount (s : State) : s.sendStatus.fifoCount = s.fifoCount := rfl
@[simp] theorem State.sendStatus_out (s : State) : s.sendStatus.out = s.out ++ [.statusOut (buildStatus s.dirty)] := rfl
@[simp] theorem State.sendStatus_sched (s : State) : s.sendStatus.sched = s.sched := rfl
@[simp] theorem State.sendStatus_freeIx (s : State) : s.sendStatus.freeIx = s.freeIx := rfl
@[simp] theorem State.sendStatus_params (s : State) : s.sendStatus.params = s.params := rfl

/-! ### taking an error (R311) -/
@[simp] theorem State.takeError_fsm (s : State) (code : Byte) (info : List Byte) (target : Fsm) : (s.takeError code info target).fsm = target := rfl
@[simp] theorem State.takeError_hdr (s : State) (code : Byte) (info : List Byte) (target : Fsm) : (s.takeError code info target).hdr = s.hdr := rfl
@[simp] theorem State.takeError_args (s : State) (code : Byte) (info : List Byte) (target : Fsm) : (s.takeError code info target).args = s.args := rfl
@[simp] theorem State.takeError_argcnt (s : State) (code : Byte) (info : List Byte) (target : Fsm) : (s.takeError code info target).argcnt = s.argcnt := rfl
@[simp] theorem State.takeError_remaining (s : State) (code : Byte) (info : List Byte) (target : Fsm) : (s.takeError code info target).remaining = s.remaining := rfl
@[simp] theorem State.takeError_blkRem (s : State) (code : Byte) (info : List Byte) (target : Fsm) : (s.takeError code info target).blkRem = s.blkRem := rfl
@[simp] theorem State.takeError_blkPos (s : State) (code : Byte) (info : List Byte) (target : Fsm) : (s.takeError code info target).blkPos = s.blkPos := rfl
@[simp] theorem State.takeError_blkCommon (s : State) (code : Byte) (info : List Byte) (target : Fsm) : (s.takeError code info target).blkCommon = s.blkCommon := rfl
@[simp] theorem State.takeError_colorLo (s : State) (code : Byte) (info : List Byte) (target : Fsm) : (s.takeError code info target).colorLo = s.colorLo := rfl
@[simp] theorem State.takeError_pxHalf (s : State) (code : Byte) (info : List Byte) (target : Fsm) : (s.takeError code info target).pxHalf = s.pxHalf := rfl
@[simp] theorem State.takeError_pxLo (s : State) (code : Byte) (info : List Byte) (target : Fsm) : (s.takeError code info target).pxLo = s.pxLo := rfl
@[simp] theorem State.takeError_copybuf (s : State) (code : Byte) (info : List Byte) (target : Fsm) : (s.takeError code info target).copybuf = s.copybuf := rfl
@[simp] theorem State.takeError_dirty (s : State) (code : Byte) (info : List Byte) (target : Fsm) : (s.takeError code info target).dirty = s.dirty := rfl
@[simp] theorem State.takeError_bootPending (s : State) (code : Byte) (info : List Byte) (target : Fsm) : (s.takeError code info target).bootPending = s.bootPending := rfl
@[simp] theorem State.takeError_fifoMem (s : State) (code : Byte) (info : List Byte) (target : Fsm) : (s.takeError code info target).fifoMem = s.fifoMem := rfl
@[simp] theorem State.takeError_fifoRd (s : State) (code : Byte) (info : List Byte) (target : Fsm) : (s.takeError code info target).fifoRd = s.fifoRd := rfl
@[simp] theorem State.takeError_fifoWr (s : State) (code : Byte) (info : List Byte) (target : Fsm) : (s.takeError code info target).fifoWr = s.fifoWr := rfl
@[simp] theorem State.takeError_fifoCount (s : State) (code : Byte) (info : List Byte) (target : Fsm) : (s.takeError code info target).fifoCount = s.fifoCount := rfl
@[simp] theorem State.takeError_out (s : State) (code : Byte) (info : List Byte) (target : Fsm) : (s.takeError code info target).out = s.out ++ [.diag code info] := rfl
@[simp] theorem State.takeError_sched (s : State) (code : Byte) (info : List Byte) (target : Fsm) : (s.takeError code info target).sched = s.sched := rfl
@[simp] theorem State.takeError_freeIx (s : State) (code : Byte) (info : List Byte) (target : Fsm) : (s.takeError code info target).freeIx = s.freeIx := rfl
@[simp] theorem State.takeError_params (s : State) (code : Byte) (info : List Byte) (target : Fsm) : (s.takeError code info target).params = s.params := rfl

/-! ### `Abort` (R310) -/
@[simp] theorem State.abort_fsm (s : State) : s.abort.fsm = .scan := rfl
@[simp] theorem State.abort_hdr (s : State) : s.abort.hdr = s.hdr := rfl
@[simp] theorem State.abort_args (s : State) : s.abort.args = s.args := rfl
@[simp] theorem State.abort_argcnt (s : State) : s.abort.argcnt = s.argcnt := rfl
@[simp] theorem State.abort_remaining (s : State) : s.abort.remaining = 0#33 := rfl
@[simp] theorem State.abort_blkRem (s : State) : s.abort.blkRem = s.blkRem := rfl
@[simp] theorem State.abort_blkPos (s : State) : s.abort.blkPos = s.blkPos := rfl
@[simp] theorem State.abort_blkCommon (s : State) : s.abort.blkCommon = s.blkCommon := rfl
@[simp] theorem State.abort_colorLo (s : State) : s.abort.colorLo = s.colorLo := rfl
@[simp] theorem State.abort_pxHalf (s : State) : s.abort.pxHalf = s.pxHalf := rfl
@[simp] theorem State.abort_pxLo (s : State) : s.abort.pxLo = s.pxLo := rfl
@[simp] theorem State.abort_copybuf (s : State) : s.abort.copybuf = s.copybuf := rfl
@[simp] theorem State.abort_dirty (s : State) : s.abort.dirty = s.dirty := rfl
@[simp] theorem State.abort_bootPending (s : State) : s.abort.bootPending = s.bootPending := rfl
@[simp] theorem State.abort_fifoMem (s : State) : s.abort.fifoMem = s.fifoMem := rfl
@[simp] theorem State.abort_fifoRd (s : State) : s.abort.fifoRd = s.fifoRd := rfl
@[simp] theorem State.abort_fifoWr (s : State) : s.abort.fifoWr = s.fifoWr := rfl
@[simp] theorem State.abort_fifoCount (s : State) : s.abort.fifoCount = s.fifoCount := rfl
@[simp] theorem State.abort_out (s : State) : s.abort.out = s.out := rfl
@[simp] theorem State.abort_sched (s : State) : s.abort.sched = s.sched := rfl
@[simp] theorem State.abort_freeIx (s : State) : s.abort.freeIx = s.freeIx := rfl
@[simp] theorem State.abort_params (s : State) : s.abort.params = s.params := rfl

/-! ### the synchronization error (R156) -/
@[simp] theorem State.syncError_fsm (s : State) (d : Byte) : (s.syncError d).fsm = .scan := rfl
@[simp] theorem State.syncError_hdr (s : State) (d : Byte) : (s.syncError d).hdr = s.hdr := rfl
@[simp] theorem State.syncError_args (s : State) (d : Byte) : (s.syncError d).args = s.args := rfl
@[simp] theorem State.syncError_argcnt (s : State) (d : Byte) : (s.syncError d).argcnt = s.argcnt := rfl
@[simp] theorem State.syncError_remaining (s : State) (d : Byte) : (s.syncError d).remaining = 0#33 := rfl
@[simp] theorem State.syncError_blkRem (s : State) (d : Byte) : (s.syncError d).blkRem = s.blkRem := rfl
@[simp] theorem State.syncError_blkPos (s : State) (d : Byte) : (s.syncError d).blkPos = s.blkPos := rfl
@[simp] theorem State.syncError_blkCommon (s : State) (d : Byte) : (s.syncError d).blkCommon = s.blkCommon := rfl
@[simp] theorem State.syncError_colorLo (s : State) (d : Byte) : (s.syncError d).colorLo = s.colorLo := rfl
@[simp] theorem State.syncError_pxHalf (s : State) (d : Byte) : (s.syncError d).pxHalf = s.pxHalf := rfl
@[simp] theorem State.syncError_pxLo (s : State) (d : Byte) : (s.syncError d).pxLo = s.pxLo := rfl
@[simp] theorem State.syncError_copybuf (s : State) (d : Byte) : (s.syncError d).copybuf = s.copybuf := rfl
@[simp] theorem State.syncError_dirty (s : State) (d : Byte) : (s.syncError d).dirty = s.dirty := rfl
@[simp] theorem State.syncError_bootPending (s : State) (d : Byte) : (s.syncError d).bootPending = s.bootPending := rfl
@[simp] theorem State.syncError_fifoMem (s : State) (d : Byte) : (s.syncError d).fifoMem = s.fifoMem := rfl
@[simp] theorem State.syncError_fifoRd (s : State) (d : Byte) : (s.syncError d).fifoRd = s.fifoRd := rfl
@[simp] theorem State.syncError_fifoWr (s : State) (d : Byte) : (s.syncError d).fifoWr = s.fifoWr := rfl
@[simp] theorem State.syncError_fifoCount (s : State) (d : Byte) : (s.syncError d).fifoCount = s.fifoCount := rfl
@[simp] theorem State.syncError_out (s : State) (d : Byte) : (s.syncError d).out = s.out ++ [.diag Config.diagSyncError [(opcodeOf s.hdr).setWidth 8, d]] := rfl
@[simp] theorem State.syncError_sched (s : State) (d : Byte) : (s.syncError d).sched = s.sched := rfl
@[simp] theorem State.syncError_freeIx (s : State) (d : Byte) : (s.syncError d).freeIx = s.freeIx := rfl
@[simp] theorem State.syncError_params (s : State) (d : Byte) : (s.syncError d).params = s.params := rfl

/-! ### `Complete` (R258) -/
@[simp] theorem State.complete_fsm (s : State) : s.complete.fsm = .scan := rfl
@[simp] theorem State.complete_hdr (s : State) : s.complete.hdr = s.hdr := rfl
@[simp] theorem State.complete_args (s : State) : s.complete.args = s.args := rfl
@[simp] theorem State.complete_argcnt (s : State) : s.complete.argcnt = s.argcnt := rfl
@[simp] theorem State.complete_remaining (s : State) : s.complete.remaining = s.remaining := rfl
@[simp] theorem State.complete_blkRem (s : State) : s.complete.blkRem = s.blkRem := rfl
@[simp] theorem State.complete_blkPos (s : State) : s.complete.blkPos = s.blkPos := rfl
@[simp] theorem State.complete_blkCommon (s : State) : s.complete.blkCommon = s.blkCommon := rfl
@[simp] theorem State.complete_colorLo (s : State) : s.complete.colorLo = s.colorLo := rfl
@[simp] theorem State.complete_pxHalf (s : State) : s.complete.pxHalf = s.pxHalf := rfl
@[simp] theorem State.complete_pxLo (s : State) : s.complete.pxLo = s.pxLo := rfl
@[simp] theorem State.complete_copybuf (s : State) : s.complete.copybuf = s.copybuf := rfl
@[simp] theorem State.complete_dirty (s : State) : s.complete.dirty = dirtyAfter s.hdr s.dirty := rfl
@[simp] theorem State.complete_bootPending (s : State) : s.complete.bootPending = s.bootPending := rfl
@[simp] theorem State.complete_fifoMem (s : State) : s.complete.fifoMem = s.fifoMem := rfl
@[simp] theorem State.complete_fifoRd (s : State) : s.complete.fifoRd = s.fifoRd := rfl
@[simp] theorem State.complete_fifoWr (s : State) : s.complete.fifoWr = s.fifoWr := rfl
@[simp] theorem State.complete_fifoCount (s : State) : s.complete.fifoCount = s.fifoCount := rfl
@[simp] theorem State.complete_out (s : State) : s.complete.out = s.out ++ [.statusOut (buildStatus (dirtyAfter s.hdr s.dirty))] := rfl
@[simp] theorem State.complete_sched (s : State) : s.complete.sched = s.sched := rfl
@[simp] theorem State.complete_freeIx (s : State) : s.complete.freeIx = s.freeIx := rfl
@[simp] theorem State.complete_params (s : State) : s.complete.params = s.params := rfl

/-! ### an accepted header byte (R143) -/
@[simp] theorem State.startFrame_fsm (s : State) (h : Byte) : (s.startFrame h).fsm = s.fsm := rfl
@[simp] theorem State.startFrame_hdr (s : State) (h : Byte) : (s.startFrame h).hdr = h := rfl
@[simp] theorem State.startFrame_args (s : State) (h : Byte) : (s.startFrame h).args = s.args := rfl
@[simp] theorem State.startFrame_argcnt (s : State) (h : Byte) : (s.startFrame h).argcnt = 0#4 := rfl
@[simp] theorem State.startFrame_remaining (s : State) (h : Byte) : (s.startFrame h).remaining = s.remaining := rfl
@[simp] theorem State.startFrame_blkRem (s : State) (h : Byte) : (s.startFrame h).blkRem = s.blkRem := rfl
@[simp] theorem State.startFrame_blkPos (s : State) (h : Byte) : (s.startFrame h).blkPos = s.blkPos := rfl
@[simp] theorem State.startFrame_blkCommon (s : State) (h : Byte) : (s.startFrame h).blkCommon = s.blkCommon := rfl
@[simp] theorem State.startFrame_colorLo (s : State) (h : Byte) : (s.startFrame h).colorLo = s.colorLo := rfl
@[simp] theorem State.startFrame_pxHalf (s : State) (h : Byte) : (s.startFrame h).pxHalf = s.pxHalf := rfl
@[simp] theorem State.startFrame_pxLo (s : State) (h : Byte) : (s.startFrame h).pxLo = s.pxLo := rfl
@[simp] theorem State.startFrame_copybuf (s : State) (h : Byte) : (s.startFrame h).copybuf = s.copybuf := rfl
@[simp] theorem State.startFrame_dirty (s : State) (h : Byte) : (s.startFrame h).dirty = s.dirty := rfl
@[simp] theorem State.startFrame_bootPending (s : State) (h : Byte) : (s.startFrame h).bootPending = s.bootPending := rfl
@[simp] theorem State.startFrame_fifoMem (s : State) (h : Byte) : (s.startFrame h).fifoMem = s.fifoMem := rfl
@[simp] theorem State.startFrame_fifoRd (s : State) (h : Byte) : (s.startFrame h).fifoRd = s.fifoRd := rfl
@[simp] theorem State.startFrame_fifoWr (s : State) (h : Byte) : (s.startFrame h).fifoWr = s.fifoWr := rfl
@[simp] theorem State.startFrame_fifoCount (s : State) (h : Byte) : (s.startFrame h).fifoCount = s.fifoCount := rfl
@[simp] theorem State.startFrame_out (s : State) (h : Byte) : (s.startFrame h).out = s.out := rfl
@[simp] theorem State.startFrame_sched (s : State) (h : Byte) : (s.startFrame h).sched = s.sched := rfl
@[simp] theorem State.startFrame_freeIx (s : State) (h : Byte) : (s.startFrame h).freeIx = s.freeIx := rfl
@[simp] theorem State.startFrame_params (s : State) (h : Byte) : (s.startFrame h).params = s.params := rfl

/-! ### an argument byte (R147) -/
@[simp] theorem State.pushArg_fsm (s : State) (d : Byte) : (s.pushArg d).fsm = s.fsm := rfl
@[simp] theorem State.pushArg_hdr (s : State) (d : Byte) : (s.pushArg d).hdr = s.hdr := rfl
@[simp] theorem State.pushArg_args (s : State) (d : Byte) : (s.pushArg d).args = s.args.setIfInBounds s.argcnt.toNat d := rfl
@[simp] theorem State.pushArg_argcnt (s : State) (d : Byte) : (s.pushArg d).argcnt = s.argcnt + 1#4 := rfl
@[simp] theorem State.pushArg_remaining (s : State) (d : Byte) : (s.pushArg d).remaining = s.remaining := rfl
@[simp] theorem State.pushArg_blkRem (s : State) (d : Byte) : (s.pushArg d).blkRem = s.blkRem := rfl
@[simp] theorem State.pushArg_blkPos (s : State) (d : Byte) : (s.pushArg d).blkPos = s.blkPos := rfl
@[simp] theorem State.pushArg_blkCommon (s : State) (d : Byte) : (s.pushArg d).blkCommon = s.blkCommon := rfl
@[simp] theorem State.pushArg_colorLo (s : State) (d : Byte) : (s.pushArg d).colorLo = s.colorLo := rfl
@[simp] theorem State.pushArg_pxHalf (s : State) (d : Byte) : (s.pushArg d).pxHalf = s.pxHalf := rfl
@[simp] theorem State.pushArg_pxLo (s : State) (d : Byte) : (s.pushArg d).pxLo = s.pxLo := rfl
@[simp] theorem State.pushArg_copybuf (s : State) (d : Byte) : (s.pushArg d).copybuf = s.copybuf := rfl
@[simp] theorem State.pushArg_dirty (s : State) (d : Byte) : (s.pushArg d).dirty = s.dirty := rfl
@[simp] theorem State.pushArg_bootPending (s : State) (d : Byte) : (s.pushArg d).bootPending = s.bootPending := rfl
@[simp] theorem State.pushArg_fifoMem (s : State) (d : Byte) : (s.pushArg d).fifoMem = s.fifoMem := rfl
@[simp] theorem State.pushArg_fifoRd (s : State) (d : Byte) : (s.pushArg d).fifoRd = s.fifoRd := rfl
@[simp] theorem State.pushArg_fifoWr (s : State) (d : Byte) : (s.pushArg d).fifoWr = s.fifoWr := rfl
@[simp] theorem State.pushArg_fifoCount (s : State) (d : Byte) : (s.pushArg d).fifoCount = s.fifoCount := rfl
@[simp] theorem State.pushArg_out (s : State) (d : Byte) : (s.pushArg d).out = s.out := rfl
@[simp] theorem State.pushArg_sched (s : State) (d : Byte) : (s.pushArg d).sched = s.sched := rfl
@[simp] theorem State.pushArg_freeIx (s : State) (d : Byte) : (s.pushArg d).freeIx = s.freeIx := rfl
@[simp] theorem State.pushArg_params (s : State) (d : Byte) : (s.pushArg d).params = s.params := rfl

/-! ### a whole frame's registers (R143, R147) -/
@[simp] theorem State.latchFrame_cons_fsm (s : State) (h : Byte) (as : List Byte) : (s.latchFrame (h :: as)).fsm = s.fsm := rfl
@[simp] theorem State.latchFrame_cons_hdr (s : State) (h : Byte) (as : List Byte) : (s.latchFrame (h :: as)).hdr = h := rfl
@[simp] theorem State.latchFrame_cons_args (s : State) (h : Byte) (as : List Byte) : (s.latchFrame (h :: as)).args = loadArgs s.args as := rfl
@[simp] theorem State.latchFrame_cons_argcnt (s : State) (h : Byte) (as : List Byte) : (s.latchFrame (h :: as)).argcnt = BitVec.ofNat 4 as.length := rfl
@[simp] theorem State.latchFrame_cons_remaining (s : State) (h : Byte) (as : List Byte) : (s.latchFrame (h :: as)).remaining = s.remaining := rfl
@[simp] theorem State.latchFrame_cons_blkRem (s : State) (h : Byte) (as : List Byte) : (s.latchFrame (h :: as)).blkRem = s.blkRem := rfl
@[simp] theorem State.latchFrame_cons_blkPos (s : State) (h : Byte) (as : List Byte) : (s.latchFrame (h :: as)).blkPos = s.blkPos := rfl
@[simp] theorem State.latchFrame_cons_blkCommon (s : State) (h : Byte) (as : List Byte) : (s.latchFrame (h :: as)).blkCommon = s.blkCommon := rfl
@[simp] theorem State.latchFrame_cons_colorLo (s : State) (h : Byte) (as : List Byte) : (s.latchFrame (h :: as)).colorLo = s.colorLo := rfl
@[simp] theorem State.latchFrame_cons_pxHalf (s : State) (h : Byte) (as : List Byte) : (s.latchFrame (h :: as)).pxHalf = s.pxHalf := rfl
@[simp] theorem State.latchFrame_cons_pxLo (s : State) (h : Byte) (as : List Byte) : (s.latchFrame (h :: as)).pxLo = s.pxLo := rfl
@[simp] theorem State.latchFrame_cons_copybuf (s : State) (h : Byte) (as : List Byte) : (s.latchFrame (h :: as)).copybuf = s.copybuf := rfl
@[simp] theorem State.latchFrame_cons_dirty (s : State) (h : Byte) (as : List Byte) : (s.latchFrame (h :: as)).dirty = s.dirty := rfl
@[simp] theorem State.latchFrame_cons_bootPending (s : State) (h : Byte) (as : List Byte) : (s.latchFrame (h :: as)).bootPending = s.bootPending := rfl
@[simp] theorem State.latchFrame_cons_fifoMem (s : State) (h : Byte) (as : List Byte) : (s.latchFrame (h :: as)).fifoMem = s.fifoMem := rfl
@[simp] theorem State.latchFrame_cons_fifoRd (s : State) (h : Byte) (as : List Byte) : (s.latchFrame (h :: as)).fifoRd = s.fifoRd := rfl
@[simp] theorem State.latchFrame_cons_fifoWr (s : State) (h : Byte) (as : List Byte) : (s.latchFrame (h :: as)).fifoWr = s.fifoWr := rfl
@[simp] theorem State.latchFrame_cons_fifoCount (s : State) (h : Byte) (as : List Byte) : (s.latchFrame (h :: as)).fifoCount = s.fifoCount := rfl
@[simp] theorem State.latchFrame_cons_out (s : State) (h : Byte) (as : List Byte) : (s.latchFrame (h :: as)).out = s.out := rfl
@[simp] theorem State.latchFrame_cons_sched (s : State) (h : Byte) (as : List Byte) : (s.latchFrame (h :: as)).sched = s.sched := rfl
@[simp] theorem State.latchFrame_cons_freeIx (s : State) (h : Byte) (as : List Byte) : (s.latchFrame (h :: as)).freeIx = s.freeIx := rfl
@[simp] theorem State.latchFrame_cons_params (s : State) (h : Byte) (as : List Byte) : (s.latchFrame (h :: as)).params = s.params := rfl

/-! ### an RLE block header (R186) -/
@[simp] theorem State.rleHeader_fsm (s : State) (common : Bool) (size : BitVec 3) : (s.rleHeader common size).fsm = s.fsm := rfl
@[simp] theorem State.rleHeader_hdr (s : State) (common : Bool) (size : BitVec 3) : (s.rleHeader common size).hdr = s.hdr := rfl
@[simp] theorem State.rleHeader_args (s : State) (common : Bool) (size : BitVec 3) : (s.rleHeader common size).args = s.args := rfl
@[simp] theorem State.rleHeader_argcnt (s : State) (common : Bool) (size : BitVec 3) : (s.rleHeader common size).argcnt = s.argcnt := rfl
@[simp] theorem State.rleHeader_remaining (s : State) (common : Bool) (size : BitVec 3) : (s.rleHeader common size).remaining = s.remaining := rfl
@[simp] theorem State.rleHeader_blkRem (s : State) (common : Bool) (size : BitVec 3) : (s.rleHeader common size).blkRem = (size.setWidth 5 + 1#5) * 2#5 := rfl
@[simp] theorem State.rleHeader_blkPos (s : State) (common : Bool) (size : BitVec 3) : (s.rleHeader common size).blkPos = if common then (size.setWidth 5 + 1#5) * 2#5 - 2#5 else 0#5 := rfl
@[simp] theorem State.rleHeader_blkCommon (s : State) (common : Bool) (size : BitVec 3) : (s.rleHeader common size).blkCommon = common := rfl
@[simp] theorem State.rleHeader_colorLo (s : State) (common : Bool) (size : BitVec 3) : (s.rleHeader common size).colorLo = s.colorLo := rfl
@[simp] theorem State.rleHeader_pxHalf (s : State) (common : Bool) (size : BitVec 3) : (s.rleHeader common size).pxHalf = s.pxHalf := rfl
@[simp] theorem State.rleHeader_pxLo (s : State) (common : Bool) (size : BitVec 3) : (s.rleHeader common size).pxLo = s.pxLo := rfl
@[simp] theorem State.rleHeader_copybuf (s : State) (common : Bool) (size : BitVec 3) : (s.rleHeader common size).copybuf = s.copybuf := rfl
@[simp] theorem State.rleHeader_dirty (s : State) (common : Bool) (size : BitVec 3) : (s.rleHeader common size).dirty = s.dirty := rfl
@[simp] theorem State.rleHeader_bootPending (s : State) (common : Bool) (size : BitVec 3) : (s.rleHeader common size).bootPending = s.bootPending := rfl
@[simp] theorem State.rleHeader_fifoMem (s : State) (common : Bool) (size : BitVec 3) : (s.rleHeader common size).fifoMem = s.fifoMem := rfl
@[simp] theorem State.rleHeader_fifoRd (s : State) (common : Bool) (size : BitVec 3) : (s.rleHeader common size).fifoRd = s.fifoRd := rfl
@[simp] theorem State.rleHeader_fifoWr (s : State) (common : Bool) (size : BitVec 3) : (s.rleHeader common size).fifoWr = s.fifoWr := rfl
@[simp] theorem State.rleHeader_fifoCount (s : State) (common : Bool) (size : BitVec 3) : (s.rleHeader common size).fifoCount = s.fifoCount := rfl
@[simp] theorem State.rleHeader_out (s : State) (common : Bool) (size : BitVec 3) : (s.rleHeader common size).out = s.out := rfl
@[simp] theorem State.rleHeader_sched (s : State) (common : Bool) (size : BitVec 3) : (s.rleHeader common size).sched = s.sched := rfl
@[simp] theorem State.rleHeader_freeIx (s : State) (common : Bool) (size : BitVec 3) : (s.rleHeader common size).freeIx = s.freeIx := rfl
@[simp] theorem State.rleHeader_params (s : State) (common : Bool) (size : BitVec 3) : (s.rleHeader common size).params = s.params := rfl

/-! ### `Reset` (R350) -/
@[simp] theorem State.resetBlock_fsm (s : State) : s.resetBlock.fsm = State.reset.fsm := rfl
@[simp] theorem State.resetBlock_hdr (s : State) : s.resetBlock.hdr = State.reset.hdr := rfl
@[simp] theorem State.resetBlock_args (s : State) : s.resetBlock.args = State.reset.args := rfl
@[simp] theorem State.resetBlock_argcnt (s : State) : s.resetBlock.argcnt = State.reset.argcnt := rfl
@[simp] theorem State.resetBlock_remaining (s : State) : s.resetBlock.remaining = State.reset.remaining := rfl
@[simp] theorem State.resetBlock_blkRem (s : State) : s.resetBlock.blkRem = State.reset.blkRem := rfl
@[simp] theorem State.resetBlock_blkPos (s : State) : s.resetBlock.blkPos = State.reset.blkPos := rfl
@[simp] theorem State.resetBlock_blkCommon (s : State) : s.resetBlock.blkCommon = State.reset.blkCommon := rfl
@[simp] theorem State.resetBlock_colorLo (s : State) : s.resetBlock.colorLo = State.reset.colorLo := rfl
@[simp] theorem State.resetBlock_pxHalf (s : State) : s.resetBlock.pxHalf = State.reset.pxHalf := rfl
@[simp] theorem State.resetBlock_pxLo (s : State) : s.resetBlock.pxLo = State.reset.pxLo := rfl
@[simp] theorem State.resetBlock_copybuf (s : State) : s.resetBlock.copybuf = State.reset.copybuf := rfl
@[simp] theorem State.resetBlock_dirty (s : State) : s.resetBlock.dirty = State.reset.dirty := rfl
@[simp] theorem State.resetBlock_bootPending (s : State) : s.resetBlock.bootPending = State.reset.bootPending := rfl
@[simp] theorem State.resetBlock_fifoMem (s : State) : s.resetBlock.fifoMem = State.reset.fifoMem := rfl
@[simp] theorem State.resetBlock_fifoRd (s : State) : s.resetBlock.fifoRd = State.reset.fifoRd := rfl
@[simp] theorem State.resetBlock_fifoWr (s : State) : s.resetBlock.fifoWr = State.reset.fifoWr := rfl
@[simp] theorem State.resetBlock_fifoCount (s : State) : s.resetBlock.fifoCount = State.reset.fifoCount := rfl
@[simp] theorem State.resetBlock_out (s : State) : s.resetBlock.out = s.out := rfl
@[simp] theorem State.resetBlock_sched (s : State) : s.resetBlock.sched = s.sched := rfl
@[simp] theorem State.resetBlock_freeIx (s : State) : s.resetBlock.freeIx = s.freeIx := rfl
@[simp] theorem State.resetBlock_params (s : State) : s.resetBlock.params = s.params := rfl

end Sys2Proof.Machine
end

