-- ==== Sys2Proof/Laws/Ops.lean ====
section
/-! SUPPORT. One lemma per shared operation that says once what it can do. -/

namespace Sys2Proof.Machine

/-! ## Ring buffer -/

theorem State.fifoHead?_some {s : State} {e : FifoEntry} :
    s.fifoHead? = some e ↔ s.fifoCount ≠ 0#16 ∧ s.fifoMem.read s.fifoRd.toNat = some e := by
  unfold State.fifoHead?
  split <;> simp_all

/-- A step that pops runs on exactly the states with a head entry (R75, R76). -/
theorem withPop_next {s t : State} {k : FifoEntry → State → Result} :
    withPop s k = .next t ↔ ∃ e, s.fifoHead? = some e ∧ k e s.popped = .next t := by
  unfold withPop
  split <;> simp_all

theorem withPop_some {s : State} {e : FifoEntry} {k : FifoEntry → State → Result} (h : s.fifoHead? = some e) :
    withPop s k = k e s.popped := by
  unfold withPop; rw [h]

theorem withPop_none {s : State} {k : FifoEntry → State → Result} (h : s.fifoHead? = none) :
    withPop s k = .fault .noEntry := by
  unfold withPop; rw [h]

/-- What a store can do: append (R72), or overwrite the oldest entry and record its byte (R73). -/
theorem fifoStore_next {s t : State} {d : Byte} {sop : Bool} (h : fifoStore s d sop = .next t) :
    (s.fifoCount.toNat < 32768 ∧ t = { s with
        fifoMem := s.fifoMem.write s.fifoWr.toNat ⟨d, sop⟩
        fifoWr := s.fifoWr + 1#15
        fifoCount := s.fifoCount + 1#16 }) ∨
    (32768 ≤ s.fifoCount.toNat ∧ ∃ lost, s.fifoMem.read s.fifoRd.toNat = some lost ∧ t = { s with
        fifoMem := s.fifoMem.write s.fifoWr.toNat ⟨d, sop⟩
        fifoWr := s.fifoWr + 1#15
        fifoRd := s.fifoRd + 1#15
        out := s.out ++ [.diag Config.diagFifoOverflow [lost.data]] }) := by
  unfold fifoStore at h
  split at h
  · rename_i hlt
    exact .inl ⟨hlt, by injection h with h; exact h.symm⟩
  · rename_i hge
    split at h
    · cases h
    · rename_i lost hl
      exact .inr ⟨Nat.not_lt.1 hge, lost, hl, by injection h with h; exact h.symm⟩

/-! ## Completion and payload bytes -/

/-- What a completion leaves (R258, R285). -/
theorem State.complete_eq (s : State) : s.complete = { s with
    dirty := dirtyAfter s.hdr s.dirty
    out := s.out ++ [.statusOut (buildStatus (dirtyAfter s.hdr s.dirty))]
    fsm := .scan } := rfl

/-- What a pixel byte does: latch the low byte, or push the pixel (R211). -/
theorem State.pixelByte_eq (s : State) (d : Byte) : s.pixelByte d =
    if s.pxHalf then { s with out := s.out ++ [.pushPixel (le16 s.pxLo d)], pxHalf := false }
    else { s with pxLo := d, pxHalf := true } := rfl

/-- What the end of a PayloadStep does (R154). -/
theorem State.finishPayload_cases (s : State) :
    (s.remaining = 0#33 ∧ s.finishPayload = s.complete) ∨ (s.remaining ≠ 0#33 ∧ s.finishPayload = s) := by
  unfold State.finishPayload
  split <;> simp_all

/-- A content byte of a literal block (R190). -/
theorem State.rleContent_literal {s : State} (d : Byte) (h : s.blkCommon = false) :
    s.rleContent d = State.rawByte { s with blkPos := s.blkPos + 1#5 } d := by
  simp [State.rleContent, h]

/-- The first colour byte of a common block (R188). -/
theorem State.rleContent_colorLo {s : State} (d : Byte) (h : s.blkCommon = true)
    (hp : s.blkPos + 1#5 = s.blkRem - 1#5) :
    s.rleContent d = { s with blkPos := s.blkPos + 1#5, colorLo := d } := by
  simp [State.rleContent, h, hp]

/-- The second colour byte of a common block (R189, R191). -/
theorem State.rleContent_colorHi {s : State} (d : Byte) (h : s.blkCommon = true)
    (hp : s.blkPos + 1#5 ≠ s.blkRem - 1#5) :
    s.rleContent d = { s with
      blkPos := s.blkPos + 1#5
      out := s.out ++ List.replicate s.runLength (.pushPixel (le16 s.colorLo d))
      remaining := s.remaining - BitVec.ofNat 33 (2 * s.runLength) } := by
  simp [State.rleContent, h, hp, State.pushRun, State.emits, State.runLength]

/-- What the start of a BitBlt does: open the window, or complete at once (R250, R252). -/
theorem State.bitBltStart_cases (s : State) (x y w h : Coord) :
    (BitVec.ofNat 33 (area w h * 2) = 0#33 ∧ s.bitBltStart x y w h = State.complete
      { s with remaining := 0#33, blkRem := 0#5, blkPos := 0#5, pxHalf := false }) ∨
    (BitVec.ofNat 33 (area w h * 2) ≠ 0#33 ∧ s.bitBltStart x y w h = { s with
      remaining := BitVec.ofNat 33 (area w h * 2)
      blkRem := 0#5
      blkPos := 0#5
      pxHalf := false
      out := s.out ++ [.setWindow x y w h]
      fsm := .payload }) := by
  by_cases hz : BitVec.ofNat 33 (area w h * 2) = 0#33
  · exact .inl ⟨hz, by simp [State.bitBltStart, hz]⟩
  · exact .inr ⟨hz, by simp only [State.bitBltStart, hz, if_false]; rfl⟩

/-- What a rectangle fill does (R243, R244). -/
theorem State.fillRect_eq (s : State) (l t r b : Coord) (c : Pixel) : s.fillRect l t r b c =
    if l < r ∧ t < b then { s with out := s.out ++ [.fillRect l t r b c] } else s := rfl

/-- What a copy of pixels `px` does when the sink answers as many pixels as the rectangle has (R246). -/
theorem State.copyRect_eq (s : State) {px : List Pixel} (sx sy dx dy w h : Coord) (hp : px.length = area w h) :
    s.copyRect px sx sy dx dy w h = { s with
      copybuf := px ++ s.copybuf.drop (area w h)
      freeIx := s.freeIx + area w h
      out := s.out ++ ([.readWindow sx sy w h px, .setWindow dx dy w h] ++ px.map .pushPixel) } := by
  simp only [State.copyRect, State.emit, State.emits, ← hp, List.take_left', List.append_assoc, List.cons_append,
    List.nil_append]

theorem State.sinkAnswer_length (s : State) (n : Nat) : (s.sinkAnswer n).length = n := by
  simp [State.sinkAnswer]

/-- What COPY_AREA's handler can do (R245 to R247). -/
theorem State.copyAreaWith_cases (s : State) (cap : Nat) (answer : Nat → List Pixel) (sx sy dx dy w h : Coord) :
    (area w h = 0 ∧ s.copyAreaWith cap answer sx sy dx dy w h = s) ∨
    (area w h ≠ 0 ∧ cap < area w h ∧ s.copyAreaWith cap answer sx sy dx dy w h = s.copyOom w h) ∨
    (area w h ≠ 0 ∧ area w h ≤ cap ∧
      s.copyAreaWith cap answer sx sy dx dy w h = s.copyRect (answer (area w h)) sx sy dx dy w h) := by
  unfold State.copyAreaWith
  split
  · exact .inl ⟨‹_›, rfl⟩
  · split
    · exact .inr (.inl ⟨‹_›, ‹_›, rfl⟩)
    · exact .inr (.inr ⟨‹_›, Nat.not_lt.1 ‹_›, rfl⟩)

/-! ## Steps -/

/-- The Engine's step by what it fetches (R140). -/
theorem engineStep_run {s : State} {i : Instr} (h : fetch s = .run i) : engineStep s = exec i s := by
  unfold engineStep; rw [h]

/-- What is fetched once the boot step is past and there is a head entry (R140, R161). -/
theorem fetch_head {s : State} {e : FifoEntry} (hb : s.bootPending = false) (hh : s.fifoHead? = some e) :
    fetch s = match s.fsm with
      | .scan => fetchScan s e.data
      | .discard => if e.sop then .resync else .drop
      | .header => fetchHeader s e.data
      | .payload => if e.sop then fetchContinuation s e.data else fetchPayload s e.data := by
  unfold fetch
  cases s.fsm <;> simp [hb, hh, (State.fifoHead?_some.1 hh).1]

/-- Each move is its agent's step (R80). -/
theorem step_nil {s : State} (h : s.sched = []) : step s = engineStep s := by
  unfold step agentStep; rw [h]

theorem step_engine {s : State} {r : List Move} (h : s.sched = .engine :: r) :
    step s = engineStep { s with sched := r } := by
  unfold step agentStep; rw [h]

theorem step_store {s : State} {d : Byte} {p : Bool} {r : List Move} (h : s.sched = .store d p :: r) :
    step s = fifoStore { s with sched := r } d p := by
  unfold step agentStep; rw [h]

theorem step_reset {s : State} {r : List Move} (h : s.sched = .reset :: r) :
    step s = .next (State.resetBlock { s with sched := r }) := by
  unfold step agentStep; rw [h]

end Sys2Proof.Machine

namespace Sys2Proof.Safety

open Sys2Proof.Machine

/-! ## What reaches the host -/

@[simp] theorem statusCount_append (xs ys : List Transaction) :
    statusCount (xs ++ ys) = statusCount xs + statusCount ys := by
  simp [statusCount]

/-- Later transactions are received after the earlier ones, by the answers to the offers not yet counted (R284). -/
theorem hostReceives_append (accepted : Nat → Bool) (k : Nat) (xs ys : List Transaction) :
    hostReceives accepted k (xs ++ ys)
      = hostReceives accepted k xs ++ hostReceives accepted (k + statusCount xs) ys := by
  induction xs generalizing k with
  | nil => rfl
  | cons t xs ih =>
    cases t with
    | statusOut p =>
      have hc : k + statusCount (.statusOut p :: xs) = k + 1 + statusCount xs := by
        show k + ((xs.filter Transaction.isStatus).length + 1) = k + 1 + (xs.filter Transaction.isStatus).length
        omega
      rw [hc]
      cases h : accepted k <;> simp [hostReceives, h, ih]
    | _ => exact ih k

end Sys2Proof.Safety
end

