-- ==== Sys2Proof/Laws/PerInstr.lean ====
section
/-! SUPPORT. Facts about each instruction as syntax: how many bytes of the wire it takes (R104). -/

namespace Sys2Proof.Laws.FrameLength

/-- The number of wire bytes each row of the opcode map takes (R104, R116, R120). -/
def wireLength : Instr → Nat
  | .nop _ => 1
  | .fill _ _ => 3
  | .rect _ _ _ _ _ _ => 11
  | .copyArea _ _ _ _ _ _ _ => 13
  | .bitblt _ _ _ _ _ => 9
  | .bitbltRle _ _ _ _ _ => 9
  | .unknownOpcode06 _ _ => 1
  | .unknownOpcode08 _ _ => 1
  | .unknownOpcode10 _ _ => 1
  | .unknownOpcode20 _ _ => 1
  | .nonFrame _ => 1
  | .contBitblt _ _ => 1
  | .contBitbltRle _ _ => 1
  | .rleLiteral _ _ => 1
  | .rleCommon _ _ => 1
  | .status => 5

/-- An instruction is encoded in as many bytes as its row says, whatever the opcodes are. -/
def Statement (i : Instr) : Prop := ∀ p : Config.Params, (encode p i).length = wireLength i

theorem nop (c : Bool) : Statement (.nop c) := fun _ => rfl
theorem fill (c : Bool) (color : Pixel) : Statement (.fill c color) := fun _ => rfl
theorem rect (c : Bool) (l t r b : Coord) (color : Pixel) : Statement (.rect c l t r b color) := fun _ => rfl
theorem copyArea (c : Bool) (sx sy dx dy w h : Coord) : Statement (.copyArea c sx sy dx dy w h) := fun _ => rfl
theorem bitblt (c : Bool) (x y w h : Coord) : Statement (.bitblt c x y w h) := fun _ => rfl
theorem bitbltRle (c : Bool) (x y w h : Coord) : Statement (.bitbltRle c x y w h) := fun _ => rfl
theorem unknownOpcode06 (c : Bool) (op : BitVec 6) : Statement (.unknownOpcode06 c op) := fun _ => rfl
theorem unknownOpcode08 (c : Bool) (op : BitVec 6) : Statement (.unknownOpcode08 c op) := fun _ => rfl
theorem unknownOpcode10 (c : Bool) (op : BitVec 6) : Statement (.unknownOpcode10 c op) := fun _ => rfl
theorem unknownOpcode20 (c : Bool) (op : BitVec 6) : Statement (.unknownOpcode20 c op) := fun _ => rfl
theorem nonFrame (d : Byte) : Statement (.nonFrame d) := fun _ => rfl
theorem contBitblt (s c : Bool) : Statement (.contBitblt s c) := fun _ => rfl
theorem contBitbltRle (s c : Bool) : Statement (.contBitbltRle s c) := fun _ => rfl
theorem rleLiteral (ig : BitVec 4) (sz : BitVec 3) : Statement (.rleLiteral ig sz) := fun _ => rfl
theorem rleCommon (ig : BitVec 4) (sz : BitVec 3) : Statement (.rleCommon ig sz) := fun _ => rfl
theorem status : Statement .status := fun _ => rfl

end Sys2Proof.Laws.FrameLength
end

