-- ==== Sys2Proof/Tests/Slice0.lean ====
section
/-! SUPPORT. Small tests, each naming the place of spec/ its expected result comes from, and for every statement with
hypotheses a concrete state that meets them. -/

namespace Sys2Proof.Tests

open Sys2Proof.Machine Sys2Proof.Safety

/-- Another setting of `CONT_MATCH` (R7). -/
def noStart : Config.Params := { Config.Params.defaults with contMatch := .opcodeFieldNoStart }
/-- Another setting of `NOP_REPORTS` (R7). -/
def reporting : Config.Params := { Config.Params.defaults with nopReports := true }
/-- Another setting of the opcodes (R7). -/
def otherOpcodes : Config.Params := { Config.Params.defaults with opcFill := 0x08#6, opcNop := 0x01#6 }

/-! ## Well-formedness: an ill-formed term for each check -/

theorem test_wf_refuses_unknown06 : (Instr.unknownOpcode06 false 0x05#6).wellFormed .defaults = false := by decide
theorem test_wf_refuses_unknown08 : (Instr.unknownOpcode08 false 0x10#6).wellFormed .defaults = false := by decide
theorem test_wf_refuses_unknown10 : (Instr.unknownOpcode10 false 0x0F#6).wellFormed .defaults = false := by decide
theorem test_wf_refuses_unknown20 : (Instr.unknownOpcode20 false 0x1F#6).wellFormed .defaults = false := by decide
theorem test_wf_refuses_nonFrame : (Instr.nonFrame 0x80#8).wellFormed .defaults = false := by decide
theorem test_wf_refuses_contBitblt_start : (Instr.contBitblt true false).wellFormed noStart = false := by decide
theorem test_wf_refuses_contBitbltRle_start : (Instr.contBitbltRle true false).wellFormed noStart = false := by decide
/-- An opcode that another setting gives to a command is no unknown one there. -/
theorem test_wf_refuses_known_opcode : (Instr.unknownOpcode08 false 0x08#6).wellFormed otherOpcodes = false := by decide

/-! ## Decoding: words written out from 30_encoding.md, `S C oooooo` for header bytes and `K ---- sss` for blocks -/

/-- R109: `NOP{flags=START}` is 80. -/
theorem test_decode_nop : decode .defaults .scan [0b10000000#8] = .ok (.nop false, []) := by decide
/-- R105: C1 00 F8. -/
theorem test_decode_fill : decode .defaults .scan [0b11000001#8, 0x00#8, 0xF8#8] = .ok (.fill true 0xF800#16, []) := by decide
/-- R243: 82 0A 00 14 00 1E 00 19 00 1F 00. -/
theorem test_decode_rect :
    decode .defaults .scan [0b10000010#8, 0x0A#8, 0x00#8, 0x14#8, 0x00#8, 0x1E#8, 0x00#8, 0x19#8, 0x00#8, 0x1F#8, 0x00#8]
      = .ok (.rect false 10 20 30 25 0x001F#16, []) := by decide
/-- R107: 83 00 00 0A 00 00 00 00 00 40 01 01 00. -/
theorem test_decode_copyArea :
    decode .defaults .scan [0b10000011#8, 0x00#8, 0x00#8, 0x0A#8, 0x00#8, 0x00#8, 0x00#8, 0x00#8, 0x00#8, 0x40#8, 0x01#8,
      0x01#8, 0x00#8] = .ok (.copyArea false 0 10 0 0 320 1, []) := by decide
/-- V4's first packet: the payload is left after the fixed header. -/
theorem test_decode_bitblt :
    decode .defaults .scan [0b10000100#8, 0x00#8, 0x00#8, 0x00#8, 0x00#8, 0x04#8, 0x00#8, 0x01#8, 0x00#8, 0x11#8, 0x22#8]
      = .ok (.bitblt false 0 0 4 1, [0x11#8, 0x22#8]) := by decide
/-- R108: 85 00 00 00 00 02 00 01 00. -/
theorem test_decode_bitbltRle :
    decode .defaults .scan [0b10000101#8, 0x00#8, 0x00#8, 0x00#8, 0x00#8, 0x02#8, 0x00#8, 0x01#8, 0x00#8]
      = .ok (.bitbltRle false 0 0 2 1, []) := by decide
/-- R103: 86 is unknown; the row of 0x86/0xBE. -/
theorem test_decode_unknown06 : decode .defaults .scan [0b10000110#8] = .ok (.unknownOpcode06 false 0x06#6, []) := by decide
theorem test_decode_unknown08 : decode .defaults .scan [0b11001111#8] = .ok (.unknownOpcode08 true 0x0F#6, []) := by decide
theorem test_decode_unknown10 : decode .defaults .scan [0b10010000#8] = .ok (.unknownOpcode10 false 0x10#6, []) := by decide
theorem test_decode_unknown20 : decode .defaults .scan [0b11111111#8] = .ok (.unknownOpcode20 true 0x3F#6, []) := by decide
/-- R123: 00 to 7F begin no frame. -/
theorem test_decode_nonFrame : decode .defaults .scan [0b01111111#8] = .ok (.nonFrame 0x7F#8, []) := by decide
/-- R113: for a BITBLT, 04 and 84 match and 05 does not. -/
theorem test_decode_contBitblt :
    decode .defaults (.payloadStart 0x84#8) [0b10000100#8] = .ok (.contBitblt true false, []) := by decide
theorem test_decode_contBitbltRle :
    decode .defaults (.payloadStart 0xC5#8) [0b01000101#8] = .ok (.contBitbltRle false true, []) := by decide
/-- C10b: under `OPCODE_FIELD_NO_START` the byte 84 fails the match, and 04 passes. -/
theorem test_cont_no_start :
    decodeCont noStart 0x84#8 0x84#8 = none
      ∧ decodeCont noStart 0x84#8 0x04#8 = some (.contBitblt false false) := by decide
/-- R116: 07 is a literal block with s = 7. -/
theorem test_decode_rleLiteral : decode .defaults .rleBoundary [0b00000111#8] = .ok (.rleLiteral 0 7, []) := by decide
/-- R119: F9 is 81 with its ignored bits set. -/
theorem test_decode_rleCommon :
    decode .defaults .rleBoundary [0b10000001#8] = .ok (.rleCommon 0 1, [])
      ∧ decode .defaults .rleBoundary [0b11111001#8] = .ok (.rleCommon 0xF#4 1, []) := by decide
/-- R120: the block sends exactly 00 80 00 00 00 and 00 00 00 00 00. -/
theorem test_decode_status :
    decode .defaults .statusIn [0x00#8, 0x80#8, 0x00#8, 0x00#8, 0x00#8] = .ok (.status, [])
      ∧ decode .defaults .statusIn [0x00#8, 0x40#8, 0x00#8, 0x00#8, 0x00#8] = .error .notStatus := by decide
/-- R147: a fixed header with one byte missing is not decoded. -/
theorem test_decode_incomplete : decode .defaults .scan [0xC1#8, 0x00#8] = .error (.incomplete 1 2) := by decide

/-! ## Small states -/

/-- Past the boot step, in framer state `f`, with one entry in the ring buffer. -/
def one (f : Fsm) (d : Byte) (sop : Bool) : State :=
  { State.reset with
    bootPending := false, fsm := f, fifoMem := [(0, ⟨d, sop⟩)], fifoWr := 1#15, fifoCount := 1#16 }

/-- Several entries from slot 0 on. -/
def many (s : State) (es : List FifoEntry) : State :=
  { s with
    bootPending := false
    fifoMem := (List.range es.length).zip es
    fifoRd := 0#15
    fifoWr := BitVec.ofNat 15 es.length
    fifoCount := BitVec.ofNat 16 es.length }

/-- In PAYLOAD of the BitBlt with header byte `h`, with `load` pixel bytes still due. -/
def payload (h : Byte) (load : Nat) (d : Byte) (sop : Bool) : State :=
  { one .payload d sop with hdr := h, remaining := BitVec.ofNat 33 load }

/-- The next state, if there is one. -/
def after (r : Result) : Option State :=
  match r with
  | .next t => some t
  | .fault _ => none
  | .refused _ => none

/-! ## Instructions, one step each -/

/-- C12: nothing is sent. -/
theorem test_nop_sends_nothing :
    (after (step (one .scan 0x80#8 true))).map (fun t => (t.out, t.fsm, t.dirty)) = some ([], .scan, true) := by decide
/-- S3 and S2: CLEAR_DIRTY on a NOP counts only with NOP_REPORTS. -/
theorem test_nop_clear_dirty :
    (after (step (one .scan 0xC0#8 true))).map (·.dirty) = some true
      ∧ (after (step { one .scan 0xC0#8 true with params := reporting })).map (fun t => (t.out, t.dirty, t.fsm))
        = some ([.statusOut ⟨0, 0, 0, 0, 0⟩], false, .scan) := by decide
/-- R103, D5: with other opcodes set, 01 is NOP and 08 takes FILL's arguments. -/
theorem test_other_opcodes :
    (after (step { one .scan 0x81#8 true with params := otherOpcodes })).map (fun t => (t.out, t.fsm)) = some ([], .scan)
      ∧ (after (step { one .scan 0x88#8 true with params := otherOpcodes })).map (·.fsm) = some .header := by decide
/-- V1, its last byte. -/
theorem test_fill_v1 :
    (after (step { one .header 0xF8#8 false with hdr := 0xC1#8, argcnt := 1#4 })).map (fun t => (t.out, t.dirty, t.fsm))
      = some ([.fillScreen 0xF800#16, .statusOut ⟨0, 0, 0, 0, 0⟩], false, .scan) := by decide
/-- C1. -/
theorem test_rect_c1 :
    (after (exec (.rect false 10 20 30 25 0x001F#16) (one .header 0 false))).map (·.out)
      = some [.fillRect 10 20 30 25 0x001F#16, .statusOut ⟨0, 0x80#8, 0, 0, 0⟩] := by decide
/-- C3: inverted. -/
theorem test_rect_c3 :
    (after (exec (.rect true 5 0 4 9 0) (one .header 0 false))).map (fun t => (t.out, t.dirty))
      = some ([.statusOut ⟨0, 0, 0, 0, 0⟩], false) := by decide
/-- C4, the copy itself. -/
theorem test_copy_c4 :
    (State.reset.copyAreaWith 64 (fun _ => [0x1111#16, 0x2222#16]) 0 1 0 0 2 1).out
      = [.readWindow 0 1 2 1 [0x1111#16, 0x2222#16], .setWindow 0 0 2 1, .pushPixel 0x1111#16, .pushPixel 0x2222#16] := by
  decide
/-- C6: 3 x 2 pixels against a buffer of 4. -/
theorem test_copy_c6 :
    (State.reset.copyAreaWith 4 (fun n => List.replicate n 0) 0 0 0 0 3 2).out
      = [.diag 0x05#8 [0x03#8, 0x00#8, 0x02#8, 0x00#8]] := by decide
/-- R250's example. -/
theorem test_bitbltRle_starts :
    (after (exec (.bitbltRle false 0 0 2 1) (one .header 0 false))).map (fun t => (t.out, t.fsm, t.remaining))
      = some ([.setWindow 0 0 2 1], .payload, 4#33) := by decide
/-- C9: a load of 0 completes at once. -/
theorem test_bitblt_c9 :
    (after (exec (.bitblt true 5 5 0 9) (one .header 0 false))).map (fun t => (t.out, t.fsm, t.dirty))
      = some ([.statusOut ⟨0, 0, 0, 0, 0⟩], .scan, false) := by decide
/-- F4: the CLEAR_DIRTY bit of an unknown header has no effect. -/
theorem test_unknown_f4 :
    (after (step (one .scan 0xC6#8 true))).map (fun t => (t.out, t.fsm, t.dirty))
      = some ([.diag 0x02#8 [0xC6#8]], .discard, true) := by decide
theorem test_unknown_rows_run :
    (after (step (one .scan 0x88#8 true))).map (·.out) = some [.diag 0x02#8 [0x88#8]]
      ∧ (after (step (one .scan 0x9F#8 true))).map (·.out) = some [.diag 0x02#8 [0x9F#8]]
      ∧ (after (step (one .scan 0xA0#8 true))).map (·.out) = some [.diag 0x02#8 [0xA0#8]] := by decide
/-- R144's example. -/
theorem test_nonFrame_discards :
    (after (step (one .scan 0x12#8 true))).map (fun t => (t.out, t.fsm, t.fifoCount))
      = some ([.diag 0x01#8 [0x12#8]], .discard, 0#16) := by decide
/-- R155's example: popped, nothing else. -/
theorem test_cont_dropped :
    after (step (payload 0x84#8 2 0x04#8 true)) = some (payload 0x84#8 2 0x04#8 true).popped := by decide
theorem test_contRle_dropped :
    after (step (payload 0x85#8 2 0x85#8 true)) = some (payload 0x85#8 2 0x85#8 true).popped := by decide
/-- R156's example: the byte stays at the head. -/
theorem test_sync_error :
    (after (step (payload 0x84#8 2 0x05#8 true))).map (fun t => (t.out, t.fsm, t.remaining, t.fifoCount))
      = some ([.diag 0x03#8 [0x04#8, 0x05#8]], .scan, 0#33, 1#16) := by decide
/-- C10b: under `OPCODE_FIELD_NO_START` the packet start 84 aborts, and then begins a new BITBLT. -/
theorem test_sync_error_c10b :
    (after (step { payload 0x84#8 2 0x84#8 true with params := noStart })).map (fun t => (t.out, t.fsm, t.remaining))
        = some ([.diag 0x03#8 [0x04#8, 0x84#8]], .scan, 0#33)
      ∧ (after (step { one .scan 0x84#8 true with params := noStart })).map (·.fsm) = some .header := by decide
/-- R186: 81 is L = 4, common, position 2. -/
theorem test_rleCommon_opens :
    (after (step (payload 0x85#8 4 0x81#8 false))).map (fun t => (t.blkRem, t.blkCommon, t.blkPos))
      = some (4#5, true, 2#5) := by decide
/-- R186: 07 is L = 16, literal. -/
theorem test_rleLiteral_opens :
    (after (step (payload 0x85#8 4 0x07#8 false))).map (fun t => (t.blkRem, t.blkCommon, t.blkPos))
      = some (16#5, false, 0#5) := by decide
/-- R191's example: 8 pixels against a load of 2. -/
theorem test_run_cut_at_load :
    (after (step { payload 0x85#8 2 0xFF#8 false with
        blkRem := 16#5, blkPos := 15#5, blkCommon := true, colorLo := 0xFF#8 })).map (fun t => (t.out, t.fsm))
      = some ([.pushPixel 0xFFFF#16, .statusOut ⟨0, 0x80#8, 0, 0, 0⟩], .scan) := by decide
/-- R154's example, its second byte. -/
theorem test_raw_byte_completes :
    (after (step { payload 0x84#8 1 0x07#8 false with pxHalf := true, pxLo := 0xE0#8 })).map (fun t => (t.out, t.fsm))
      = some ([.pushPixel 0x07E0#16, .statusOut ⟨0, 0x80#8, 0, 0, 0⟩], .scan) := by decide
/-- R353's example: the boot packet. -/
theorem test_boot_packet :
    (after (step State.reset)).map (fun t => (t.out, t.bootPending))
      = some ([.statusOut ⟨0, 0x80#8, 0, 0, 0⟩], false) := by decide
/-- S7: a packet the transport drops does not reach the host. -/
theorem test_dropped_packet :
    hostReceives (fun k => k == 0) 0 [.statusOut ⟨0, 0x80#8, 0, 0, 0⟩, .fillScreen 0, .statusOut ⟨0, 0, 0, 0, 0⟩]
      = [⟨0, 0x80#8, 0, 0, 0⟩] := by decide
/-- R72's example. -/
theorem test_store_from_reset :
    (after (fifoStore State.reset 0xC1#8 true)).map (fun t => (t.fifoMem, t.fifoWr, t.fifoCount, t.fifoRd))
      = some ([(0, ⟨0xC1#8, true⟩)], 1#15, 1#16, 0#15) := by decide
/-- Q4: the write index wraps at slot 32767. -/
theorem test_store_wraps :
    (after (fifoStore { State.reset with fifoWr := 32767#15, fifoRd := 32767#15 } 0xF8#8 false)).map
      (fun t => (t.fifoMem, t.fifoWr)) = some ([(32767, ⟨0xF8#8, false⟩)], 0#15) := by decide
/-- R41: one tag per packet, and an empty packet makes no store. -/
theorem test_packet_moves :
    packetMoves [0xC1#8, 0x00#8] = [.store 0xC1#8 true, .store 0x00#8 false] ∧ packetMoves [] = [] := by decide
/-- The host's placing of a table word: FILL with an operand of zeros runs at the very next step. -/
theorem test_withFetchWord_fill :
    (after (step (State.reset.withFetchWord 8 0x81))).map (·.out)
      = some [.fillScreen 0, .statusOut ⟨0, 0x80#8, 0, 0, 0⟩] := by decide

/-! ## Witnesses: every statement's hypotheses are met by a concrete state -/

theorem readyOne (f : Fsm) (d : Byte) (sop : Bool) : Ready (one f d sop) ⟨d, sop⟩ := ⟨rfl, rfl, rfl⟩

/-- DecodeUndoesEncode, one instruction for each context. -/
theorem witness_DecodeUndoesEncode :
    (Config.Params.defaults.valid && (Instr.copyArea true 1 2 3 4 5 6).wellFormed .defaults
      && (Instr.copyArea true 1 2 3 4 5 6).readIn .defaults .scan
      && (Instr.unknownOpcode20 true 0x3F#6).wellFormed .defaults
      && (Instr.unknownOpcode20 true 0x3F#6).readIn .defaults .scan
      && (Instr.contBitblt true true).wellFormed .defaults
      && (Instr.contBitblt true true).readIn .defaults (.payloadStart 0xC4#8)
      && (Instr.rleCommon 9 7).wellFormed .defaults && (Instr.rleCommon 9 7).readIn .defaults .rleBoundary
      && noStart.valid && (Instr.contBitbltRle false true).wellFormed noStart
      && (Instr.contBitbltRle false true).readIn noStart (.payloadStart 0x85#8)
      && otherOpcodes.valid && (Instr.fill true 1).wellFormed otherOpcodes && (Instr.fill true 1).readIn otherOpcodes .scan
      && Instr.status.wellFormed .defaults && Instr.status.readIn .defaults .statusIn) = true := by decide
/-- EncodeUndoesDecode, one decoding for each of its contexts. -/
theorem witness_EncodeUndoesDecode :
    decode .defaults .scan [0xC1#8, 0x00#8, 0xF8#8, 0x80#8] = .ok (.fill true 0xF800#16, [0x80#8])
      ∧ decode .defaults (.payloadStart 0x85#8) [0xC5#8] = .ok (.contBitbltRle true true, [])
      ∧ decode .defaults .rleBoundary [0xF9#8] = .ok (.rleCommon 0xF#4 1, []) := by decide
/-- BytesDecodeByMaskAndMatch, a byte at the end of each row's range. -/
theorem witness_BytesDecodeByMaskAndMatch :
    0x7F#8 &&& 0x80#8 = 0x00#8 ∧ 0xC0#8 &&& 0xBF#8 = 0x80#8 ∧ 0xC1#8 &&& 0xBF#8 = 0x81#8
      ∧ 0xC2#8 &&& 0xBF#8 = 0x82#8 ∧ 0xC3#8 &&& 0xBF#8 = 0x83#8 ∧ 0xC4#8 &&& 0xBF#8 = 0x84#8
      ∧ 0xC5#8 &&& 0xBF#8 = 0x85#8 ∧ 0xC7#8 &&& 0xBE#8 = 0x86#8 ∧ 0xCF#8 &&& 0xB8#8 = 0x88#8
      ∧ 0xDF#8 &&& 0xB0#8 = 0x90#8 ∧ 0xFF#8 &&& 0xA0#8 = 0xA0#8 ∧ 0xFF#8 &&& 0x80#8 = 0x80#8 := by decide

/-- The statements about `exec` of a popping instruction ask for a head entry only (NopTakesItsHeaderByteOnly,
FillPaintsThePanelAndCompletes, RectPaintsItsHalfOpenRectangle, CopyAreaReadsAllThenWritesAll,
BitBltStartsOrCompletesAtOnce, LoadIsExact, and the first clauses of UnknownOpcodesAreRecordedAndDiscarded,
NonFrameByteIsRecordedAndDiscarded, MatchingContinuationByteIsDropped and RleHeaderOpensItsBlock). -/
theorem witness_head_entry : (one .header 0xF8#8 false).fifoHead? = some ⟨0xF8#8, false⟩ := by decide

/-- CopyAreaCasesByBufferSize: no pixel, one pixel too many, and exactly the buffer. -/
theorem witness_CopyAreaCasesByBufferSize :
    (List.replicate 6 (0 : Pixel)).length = (3#16).toNat * (2#16).toNat
      ∧ (0#16).toNat * (7#16).toNat = 0 ∧ 5 < (3#16).toNat * (2#16).toNat
      ∧ 0 < (3#16).toNat * (2#16).toNat ∧ (3#16).toNat * (2#16).toNat ≤ 6 := by decide

/-- UnknownOpcodesAreRecordedAndDiscarded, its second clause at the first and the last unknown opcode. -/
theorem witness_UnknownOpcodesAreRecordedAndDiscarded :
    Ready (one .scan 0x86#8 true) ⟨0x86#8, true⟩ ∧ (0x86#8).getLsbD 7 = true
      ∧ ((0x86#8).setWidth 6 : BitVec 6) ∉ (one .scan 0x86#8 true).params.opcodes
      ∧ Ready (one .scan 0xFF#8 false) ⟨0xFF#8, false⟩ ∧ (0xFF#8).getLsbD 7 = true
      ∧ ((0xFF#8).setWidth 6 : BitVec 6) ∉ (one .scan 0xFF#8 false).params.opcodes :=
  ⟨readyOne .scan 0x86#8 true, by decide, by decide, readyOne .scan 0xFF#8 false, by decide, by decide⟩

/-- NonFrameByteIsRecordedAndDiscarded, its second clause. -/
theorem witness_NonFrameByteIsRecordedAndDiscarded :
    Ready (one .scan 0x7F#8 false) ⟨0x7F#8, false⟩ ∧ (0x7F#8).getLsbD 7 = false := ⟨readyOne .scan 0x7F#8 false, by decide⟩

theorem readyPayload (h : Byte) (load : Nat) (d : Byte) (sop : Bool) : Ready (payload h load d sop) ⟨d, sop⟩ :=
  ⟨rfl, rfl, rfl⟩

/-- MatchingContinuationByteIsDropped, its third clause, for each opcode and each setting of `CONT_MATCH`. -/
theorem witness_MatchingContinuationByteIsDropped :
    Ready (payload 0x84#8 2 0xC4#8 true) ⟨0xC4#8, true⟩
      ∧ ((0x84#8).setWidth 6 : BitVec 6) = Config.Params.defaults.opcBitblt ∧ Continues .defaults 0xC4#8 0x84#8
      ∧ Ready { payload 0xC5#8 2 0x05#8 true with params := noStart } ⟨0x05#8, true⟩
      ∧ ((0xC5#8).setWidth 6 : BitVec 6) = noStart.opcBitbltRle ∧ Continues noStart 0x05#8 0xC5#8 :=
  ⟨readyPayload _ _ _ _, by decide, ⟨by decide, .inl rfl⟩, ⟨rfl, rfl, rfl⟩, by decide, ⟨by decide, .inr (by decide)⟩⟩

/-- MismatchedContinuationByteAborts, by the opcode and by bit 7. -/
theorem witness_MismatchedContinuationByteAborts :
    Ready (payload 0x84#8 2 0x05#8 true) ⟨0x05#8, true⟩ ∧ ¬ Continues .defaults 0x05#8 0x84#8
      ∧ Ready { payload 0x84#8 2 0x84#8 true with params := noStart } ⟨0x84#8, true⟩
      ∧ ¬ Continues noStart 0x84#8 0x84#8 :=
  ⟨readyPayload _ _ _ _, fun h => absurd h.1 (by decide), ⟨rfl, rfl, rfl⟩, fun h => absurd h.2 (by decide)⟩

/-- RleHeaderOpensItsBlock, its second clause, for the last literal and the first common header. -/
theorem witness_RleHeaderOpensItsBlock :
    Ready (payload 0x85#8 2 0x7F#8 false) ⟨0x7F#8, false⟩ ∧ Ready (payload 0x85#8 2 0x80#8 false) ⟨0x80#8, false⟩
      ∧ ((payload 0x85#8 2 0x7F#8 false).hdr.setWidth 6 : BitVec 6) ≠ Config.Params.defaults.opcBitblt
      ∧ (payload 0x85#8 2 0x7F#8 false).remaining ≠ 0#33
      ∧ (payload 0x85#8 2 0x7F#8 false).blkRem.toNat ≤ (payload 0x85#8 2 0x7F#8 false).blkPos.toNat :=
  ⟨readyPayload _ _ _ _, readyPayload _ _ _ _, by decide, by decide, by decide⟩

/-- RawByteIsHalfAPixel. -/
theorem witness_RawByteIsHalfAPixel :
    Ready (payload 0x84#8 1 0x07#8 false) ⟨0x07#8, false⟩
      ∧ ((payload 0x84#8 1 0x07#8 false).hdr.setWidth 6 : BitVec 6) = Config.Params.defaults.opcBitblt
      ∧ (payload 0x84#8 1 0x07#8 false).remaining ≠ 0#33 := ⟨readyPayload _ _ _ _, by decide, by decide⟩

/-- An open block: position `pos` of `len`. -/
def inBlock (len pos : BitVec 5) (common : Bool) : State :=
  { payload 0x85#8 2 0x07#8 false with blkRem := len, blkPos := pos, blkCommon := common }

/-- RleContentBytesDecode, each clause, the common ones at the shortest block. -/
theorem witness_RleContentBytesDecode :
    Ready (inBlock 2#5 0#5 true) ⟨0x07#8, false⟩ ∧ (inBlock 2#5 0#5 true).blkPos.toNat + 2 = (inBlock 2#5 0#5 true).blkRem.toNat
      ∧ Ready (inBlock 2#5 1#5 true) ⟨0x07#8, false⟩
      ∧ (inBlock 2#5 1#5 true).blkPos.toNat + 1 = (inBlock 2#5 1#5 true).blkRem.toNat
      ∧ Ready (inBlock 16#5 15#5 false) ⟨0x07#8, false⟩
      ∧ (inBlock 16#5 15#5 false).blkPos.toNat < (inBlock 16#5 15#5 false).blkRem.toNat
      ∧ ((inBlock 16#5 15#5 false).hdr.setWidth 6 : BitVec 6) ≠ Config.Params.defaults.opcBitblt
      ∧ (inBlock 16#5 15#5 false).remaining ≠ 0#33 :=
  ⟨⟨rfl, rfl, rfl⟩, by decide, ⟨rfl, rfl, rfl⟩, by decide, ⟨rfl, rfl, rfl⟩, by decide, by decide, by decide⟩

/-- FILL with its last byte at the head. -/
def fillLast : State := { one .header 0xF8#8 true with hdr := 0xC1#8, argcnt := 1#4 }

/-- StepRunsTheDecodedInstruction, each clause. -/
theorem witness_StepRunsTheDecodedInstruction :
    (Ready (one .scan 0x80#8 true) ⟨0x80#8, true⟩ ∧ decode .defaults .scan [0x80#8] = .ok (.nop false, [])
        ∧ (Instr.nop false).wellFormed .defaults = true)
      ∧ (Ready fillLast ⟨0xF8#8, true⟩ ∧ decode .defaults .scan (fillLast.frameBytes 0xF8#8) = .ok (.fill true 0xF800#16, [])
        ∧ (Instr.fill true 0xF800#16).wellFormed .defaults = true)
      ∧ (Ready (payload 0x84#8 2 0xC4#8 true) ⟨0xC4#8, true⟩
        ∧ decode .defaults (.payloadStart 0x84#8) [0xC4#8] = .ok (.contBitblt true true, [])
        ∧ (Instr.contBitblt true true).wellFormed .defaults = true)
      ∧ (Ready (payload 0x85#8 2 0x81#8 false) ⟨0x81#8, false⟩
        ∧ ((0x85#8).setWidth 6 : BitVec 6) ≠ Config.Params.defaults.opcBitblt
        ∧ (payload 0x85#8 2 0x81#8 false).remaining ≠ 0#33
        ∧ (payload 0x85#8 2 0x81#8 false).blkRem.toNat ≤ (payload 0x85#8 2 0x81#8 false).blkPos.toNat
        ∧ decode .defaults .rleBoundary [0x81#8] = .ok (.rleCommon 0 1, [])
        ∧ (Instr.rleCommon 0 1).wellFormed .defaults = true)
      ∧ State.reset.sched = [] ∧ State.reset.bootPending = true :=
  ⟨⟨readyOne _ _ _, by decide, by decide⟩, ⟨⟨rfl, rfl, rfl⟩, by decide, by decide⟩,
    ⟨readyPayload _ _ _ _, by decide, by decide⟩,
    ⟨readyPayload _ _ _ _, by decide, by decide, by decide, by decide, by decide⟩, by decide, by decide⟩

/-- HeaderByteWithArgumentsIsAccepted, at the first and the last opcode with arguments. -/
theorem witness_HeaderByteWithArgumentsIsAccepted :
    Ready (one .scan 0x81#8 true) ⟨0x81#8, true⟩ ∧ (0x81#8).getLsbD 7 = true
      ∧ ((0x81#8).setWidth 6 : BitVec 6) ∈ Config.Params.defaults.withArguments ∧ Config.Params.defaults.valid = true
      ∧ Ready (one .scan 0xC5#8 false) ⟨0xC5#8, false⟩ ∧ (0xC5#8).getLsbD 7 = true
      ∧ ((0xC5#8).setWidth 6 : BitVec 6) ∈ Config.Params.defaults.withArguments :=
  ⟨readyOne _ _ _, by decide, by decide, by decide, readyOne _ _ _, by decide, by decide⟩

/-- COPY_AREA with ten of its twelve argument bytes. -/
def copyTen : State := { one .header 0x90#8 true with hdr := 0x83#8, argcnt := 10#4 }

/-- ArgumentByteIsAppended: the eleventh argument byte of COPY_AREA. -/
theorem witness_ArgumentByteIsAppended :
    Ready copyTen ⟨0x90#8, true⟩ ∧ copyTen.hdr.getLsbD 7 = true
      ∧ copyTen.argcnt.toNat + 1 < need .defaults (copyTen.hdr.setWidth 6) := ⟨⟨rfl, rfl, rfl⟩, by decide, by decide⟩

/-- LastArgumentByteDispatches. -/
theorem witness_LastArgumentByteDispatches :
    Ready fillLast ⟨0xF8#8, true⟩ ∧ fillLast.hdr.getLsbD 7 = true
      ∧ fillLast.argcnt.toNat + 1 = need .defaults (fillLast.hdr.setWidth 6) := ⟨⟨rfl, rfl, rfl⟩, by decide, by decide⟩

/-- DiscardDropsUpToThePacketStart, both clauses. -/
theorem witness_DiscardDropsUpToThePacketStart :
    Ready (one .discard 0x81#8 false) ⟨0x81#8, false⟩ ∧ Ready (one .discard 0x81#8 true) ⟨0x81#8, true⟩ :=
  ⟨readyOne _ _ _, readyOne _ _ _⟩

/-- BootStepSendsTheStartupPacket, with a byte waiting. -/
theorem witness_BootStepSendsTheStartupPacket :
    ({ one .scan 0x80#8 true with bootPending := true } : State).sched = []
      ∧ ({ one .scan 0x80#8 true with bootPending := true } : State).bootPending = true := by decide

/-- EmptyRingBufferChangesNothing, in the middle of a header. -/
theorem witness_EmptyRingBufferChangesNothing :
    fillLast.popped.sched = [] ∧ fillLast.popped.bootPending = false ∧ fillLast.popped.fifoCount = 0#16 := by decide

/-- StoreAppendsAnEntry, at the last free slot. -/
theorem witness_StoreAppendsAnEntry :
    ({ State.reset with sched := [.store 1#8 true], fifoCount := 32767#16 } : State).sched = [.store 1#8 true]
      ∧ ({ State.reset with sched := [.store 1#8 true], fifoCount := 32767#16 } : State).fifoCount.toNat < 32768 := by
  decide

/-- StoreIntoFullOverwritesTheOldest. -/
theorem witness_StoreIntoFullOverwritesTheOldest :
    ({ one .scan 9#8 true with sched := [.store 1#8 true], fifoCount := 32768#16 } : State).fifoCount = 32768#16
      ∧ ({ one .scan 9#8 true with sched := [.store 1#8 true], fifoCount := 32768#16 } : State).sched = [.store 1#8 true]
      ∧ ({ one .scan 9#8 true with sched := [.store 1#8 true], fifoCount := 32768#16 } : State).fifoMem.read 0
        = some ⟨9#8, true⟩ := by decide

/-- ResetSetsTheStatedValues, and the reset clause of DirtyIsClearedOnlyByACompletion shut out. -/
theorem witness_ResetSetsTheStatedValues :
    ({ fillLast with sched := [.reset, .engine] } : State).sched = .reset :: [.engine] := rfl

/-- ScheduledEngineMoveIsTheEngineStep. -/
theorem witness_ScheduledEngineMoveIsTheEngineStep :
    step { one .scan 0x80#8 true with sched := [] } = .next { (one .scan 0x80#8 true).popped with hdr := 0x80#8 } := rfl

/-- The ring buffer of the small state is well formed. -/
theorem ringInv_one (f : Fsm) (d : Byte) (sop : Bool) : RingInv (one f d sop) where
  canonical := rfl
  count_le := by
    show (1#16).toNat ≤ 32768
    decide
  indices := rfl
  occupied := by
    intro i hi
    have h1 : (one f d sop).fifoCount.toNat = 1 := rfl
    obtain rfl : i = 0 := by omega
    rfl

/-- PacketArrivesInOrder, after an entry already there, and for an empty packet. -/
theorem witness_PacketArrivesInOrder :
    RingInv { one .scan 7#8 true with sched := packetMoves [0xC1#8, 0x00#8] ++ [.engine] }
      ∧ ({ one .scan 7#8 true with sched := packetMoves [0xC1#8, 0x00#8] ++ [.engine] } : State).sched
        = packetMoves [0xC1#8, 0x00#8] ++ [.engine]
      ∧ (one .scan 7#8 true).fifoCount.toNat + [0xC1#8, 0x00#8].length ≤ 32768
      ∧ (one .scan 7#8 true).sched = packetMoves [] ++ [] :=
  ⟨⟨rfl, by decide, by decide, (ringInv_one .scan 7#8 true).occupied⟩, rfl, by decide, rfl⟩

/-- RingBufferIsAQueue. -/
theorem witness_RingBufferIsAQueue :
    RingInv (one .scan 7#8 true) ∧ (one .scan 7#8 true).fifoContents = [(⟨7#8, true⟩ : FifoEntry)].map some :=
  ⟨ringInv_one _ _ _, by decide⟩

/-- StoreCommutesWithEngineStep, before the boot step and with an entry at the head. -/
theorem witness_StoreCommutesWithEngineStep :
    (State.reset.sched = [] ∧ State.reset.bootPending = true ∧ State.reset.fifoCount.toNat < 32768
        ∧ State.reset.fifoWr = State.reset.fifoRd + State.reset.fifoCount.setWidth 15 ∧ (after (step State.reset)).isSome)
      ∧ (one .scan 0x80#8 true).sched = [] ∧ (one .scan 0x80#8 true).fifoCount ≠ 0#16
      ∧ (one .scan 0x80#8 true).fifoCount.toNat < 32768
      ∧ (one .scan 0x80#8 true).fifoWr
        = (one .scan 0x80#8 true).fifoRd + (one .scan 0x80#8 true).fifoCount.setWidth 15
      ∧ (after (step (one .scan 0x80#8 true))).isSome := by decide

/-- A literal block half read, in PAYLOAD, satisfies the invariant. -/
theorem inv_example : Inv { payload 0xC5#8 3 0x07#8 false with
    blkRem := 4#5, blkPos := 1#5, pxHalf := true, pxLo := 0xE0#8 } where
  ring := ⟨rfl, by decide, by decide, (ringInv_one .payload 0x07#8 false).occupied⟩
  frame := ⟨by decide, by decide, by decide, by decide, by decide⟩
  decoder := ⟨by decide, by decide, by decide, by decide, by decide, by decide, by decide⟩
  copybuf_le := Nat.zero_le _
  params := by decide

/-- EveryStepSucceedsAndKeepsTheInvariant and EngineDrainsTheRingBuffer. -/
theorem witness_Inv : ∃ s t u, Inv s ∧ s.sched = [] ∧ s.bootPending = false ∧ s.fifoCount ≠ 0#16 ∧ step s = .next t
    ∧ step t = .next u :=
  ⟨_, _, _, inv_example, rfl, rfl, by decide, rfl, rfl⟩

/-- StepKeepsTheStorageCanonical, EngineTouchesTheRingOnlyByPopping, DirtyIsClearedOnlyByACompletion,
OneStepReportsAtMostOnce, ParametersNeverChange and DroppedStatusPacketsAreGone ask for a step that succeeds. -/
theorem witness_a_step_succeeds :
    fillLast.fifoMem.wf = true ∧ fillLast.sched = [] ∧ (after (step fillLast)).isSome := by decide

/-- FramerFollowsItsTransitionTable, one state for each clause. -/
theorem witness_FramerFollowsItsTransitionTable :
    Ready (one .scan 0x12#8 true) ⟨0x12#8, true⟩ ∧ (after (step (one .scan 0x12#8 true))).isSome
      ∧ Ready (one .discard 0x12#8 false) ⟨0x12#8, false⟩ ∧ (after (step (one .discard 0x12#8 false))).isSome
      ∧ Ready fillLast ⟨0xF8#8, true⟩ ∧ (after (step fillLast)).isSome
      ∧ Ready (payload 0x84#8 1 0x07#8 false) ⟨0x07#8, false⟩ ∧ (after (step (payload 0x84#8 1 0x07#8 false))).isSome :=
  ⟨readyOne _ _ _, by decide, readyOne _ _ _, by decide, ⟨rfl, rfl, rfl⟩, by decide, readyPayload _ _ _ _, by decide⟩

/-- InstructionsStopOnlyWithoutAnEntry, its second clause. -/
theorem witness_InstructionsStopOnlyWithoutAnEntry :
    Instr.nop false ≠ .status ∧ State.reset.fifoHead? = none := by decide

/-- R6: the colour split across packets, after the last header byte; then a NOP that is left over. -/
def rleEntries : List FifoEntry := [⟨0x81#8, false⟩, ⟨0xE0#8, false⟩, ⟨0x05#8, true⟩, ⟨0x07#8, false⟩]

/-- RlePayloadPushesItsPixels, from vector R6. -/
theorem witness_RlePayloadPushesItsPixels :
    (many State.reset (⟨0x00#8, false⟩ :: (rleEntries ++ [⟨0x80#8, false⟩]))).fifoContents
        = some ⟨0x00#8, false⟩ :: (rleEntries.map some ++ [some ⟨0x80#8, false⟩])
      ∧ (many State.reset (⟨0x00#8, false⟩ :: (rleEntries ++ [⟨0x80#8, false⟩]))).sched = []
      ∧ (many State.reset (⟨0x00#8, false⟩ :: (rleEntries ++ [⟨0x80#8, false⟩]))).bootPending = false
      ∧ [RleBlock.common 2 0x07E0#16].all RleBlock.valid = true
      ∧ Config.Params.defaults.valid = true
      ∧ ([RleBlock.common 2 0x07E0#16].map fun b => b.pixels.length).sum = (2#16).toNat * (1#16).toNat
      ∧ payloadOf rleEntries = [RleBlock.common 2 0x07E0#16].flatMap RleBlock.bytes
      ∧ wellPacketed .defaults Config.Params.defaults.opcBitbltRle rleEntries = true := by decide

/-- C8: a pixel split across packets. -/
def rawEntries : List FifoEntry := [⟨0xE0#8, false⟩, ⟨0x04#8, true⟩, ⟨0x07#8, false⟩]

/-- RawPayloadPushesItsPixels, from vector C8. -/
theorem witness_RawPayloadPushesItsPixels :
    (many State.reset (⟨0x00#8, false⟩ :: rawEntries)).fifoContents = some ⟨0x00#8, false⟩ :: (rawEntries.map some ++ [])
      ∧ (many State.reset (⟨0x00#8, false⟩ :: rawEntries)).sched = []
      ∧ (many State.reset (⟨0x00#8, false⟩ :: rawEntries)).bootPending = false
      ∧ [0x07E0#16].length = (1#16).toNat * (1#16).toNat ∧ payloadOf rawEntries = pixelBytes [0x07E0#16]
      ∧ wellPacketed .defaults Config.Params.defaults.opcBitblt rawEntries = true := by decide

/-- GarbagePacketsThenFillAppliesExactlyTheFill, from vector V2. -/
theorem witness_GarbagePacketsThenFillAppliesExactlyTheFill :
    (many State.reset ([[0x12#8, 0x34#8, 0x56#8], [0x00#8, 0x81#8, 0x00#8]].flatMap packetEntries
          ++ packetEntries [0xC1#8, 0x00#8, 0xF8#8])).fifoContents
        = ([[0x12#8, 0x34#8, 0x56#8], [0x00#8, 0x81#8, 0x00#8]].flatMap packetEntries
          ++ packetEntries [headerByte Config.Params.defaults.opcFill true, lo 0xF800#16, hi 0xF800#16]).map some
      ∧ (many State.reset []).params.valid = true ∧ (many State.reset []).fsm = .scan
      ∧ (0x12#8).getLsbD 7 = false ∧ (0x00#8).getLsbD 7 = false := by decide

/-- NopPacketAbandonsABitBlt, from vector S4. -/
theorem witness_NopPacketAbandonsABitBlt :
    (⟨0x80#8, true⟩ : FifoEntry) = ⟨headerByte Config.Params.defaults.opcNop false, true⟩
      ∧ Config.Params.defaults.valid = true
      ∧ Ready (payload 0x84#8 2 0x80#8 true) ⟨0x80#8, true⟩
      ∧ ((payload 0x84#8 2 0x80#8 true).hdr.setWidth 6 : BitVec 6) = Config.Params.defaults.opcBitblt :=
  ⟨by decide, by decide, readyPayload _ _ _ _, by decide⟩

end Sys2Proof.Tests
end

/-! # Scope (00_scope.md): wire integers, the load of a BitBlt, the parameters

Proofs of the statements on R7, R8, R10, R25, R38 and R352, with the laws of the shared operations they rest on. -/

/-! ## Byte order (R10, R70) -/

namespace Sys2Proof

/-- A wire integer is its second byte followed, on the low side, by its first. -/
theorem le16_eq_append (b0 b1 : Byte) : le16 b0 b1 = b1 ++ b0 := by
  rw [BitVec.append_def, BitVec.shiftLeftZeroExtend_eq, le16, BitVec.setWidth'_eq]

theorem le16_toNat (b0 b1 : Byte) : (le16 b0 b1).toNat = b0.toNat + 256 * b1.toNat := by
  have hb0 : b0.toNat < 2 ^ 8 := b0.isLt
  rw [le16_eq_append, BitVec.toNat_append, ← Nat.shiftLeft_add_eq_or_of_lt hb0, Nat.shiftLeft_eq]
  omega

@[simp] theorem loByte_le16 (b0 b1 : Byte) : loByte (le16 b0 b1) = b0 := by
  apply BitVec.eq_of_toNat_eq
  simp only [loByte, BitVec.toNat_setWidth, le16_toNat]
  omega

@[simp] theorem hiByte_le16 (b0 b1 : Byte) : hiByte (le16 b0 b1) = b1 := by
  apply BitVec.eq_of_toNat_eq
  simp only [hiByte, BitVec.toNat_setWidth, BitVec.toNat_ushiftRight, le16_toNat, Nat.shiftRight_eq_div_pow]
  omega

/-- Settles O6: the value is that of the two bytes appended, and each wire byte is read off it. -/
theorem wireIntegersAreLittleEndian : Obligations.WireIntegersAreLittleEndian := by
  intro b0 b1
  exact ⟨le16_toNat b0 b1, by rw [fieldBytes, loByte_le16, hiByte_le16]⟩

end Sys2Proof

namespace Sys2Proof.Machine

/-! ## The load of a BitBlt (R25, R111) -/

/-- The largest load is that of a 65535 by 65535 rectangle. -/
theorem two_mul_area_le (w h : Coord) : area w h * 2 ≤ 8589672450 := by
  have hw : w.toNat ≤ 65535 := Nat.le_of_lt_succ w.isLt
  have hh : h.toNat ≤ 65535 := Nat.le_of_lt_succ h.isLt
  have harea : area w h ≤ 65535 * 65535 := Nat.mul_le_mul hw hh
  omega

/-- No load wraps in the 33 bits of `st.remaining`. -/
theorem load_toNat (w h : Coord) : (BitVec.ofNat 33 (area w h * 2)).toNat = area w h * 2 := by
  have hfits : area w h * 2 < 2 ^ 33 := (two_mul_area_le w h).trans_lt (by norm_num)
  rw [BitVec.toNat_ofNat, Nat.mod_eq_of_lt hfits]

/-- The start of a BitBlt sets the load, whether the window is opened or the command completes at once. -/
@[simp] theorem State.bitBltStart_remaining (s : State) (x y w h : Coord) :
    (s.bitBltStart x y w h).remaining = BitVec.ofNat 33 (area w h * 2) := by
  rcases s.bitBltStart_cases x y w h with ⟨hzero, heq⟩ | ⟨-, heq⟩
  · rw [heq, State.complete_remaining, hzero]
  · rw [heq]

theorem State.bitBltStart_load (s : State) (x y w h : Coord) :
    (s.bitBltStart x y w h).remaining.toNat = w.toNat * h.toNat * 2 ∧
      (s.bitBltStart x y w h).remaining.toNat ≤ 8589672450 := by
  rw [State.bitBltStart_remaining, load_toNat]
  exact ⟨rfl, two_mul_area_le w h⟩

/-- BITBLT with a head entry: its fixed header is latched and the BitBlt starts (R249, R250). -/
theorem exec_bitblt {s : State} {e : FifoEntry} (clear : Bool) (x y w h : Coord) (hhead : s.fifoHead? = some e) :
    exec (.bitblt clear x y w h) s =
      .next ((s.popped.latchFrame (encode s.params (.bitblt clear x y w h))).bitBltStart x y w h) :=
  show execBitblt clear x y w h s = _ from withPop_some hhead

/-- BITBLT_RLE with a head entry: its fixed header is latched and the BitBlt starts (R250, R251). -/
theorem exec_bitbltRle {s : State} {e : FifoEntry} (clear : Bool) (x y w h : Coord) (hhead : s.fifoHead? = some e) :
    exec (.bitbltRle clear x y w h) s =
      .next ((s.popped.latchFrame (encode s.params (.bitbltRle clear x y w h))).bitBltStart x y w h) :=
  show execBitbltRle clear x y w h s = _ from withPop_some hhead

/-- Settles O13: both opcodes start a BitBlt, whose load fits in 33 bits. -/
theorem loadIsExact : Obligations.LoadIsExact := by
  intro clear x y w h s e hhead
  exact ⟨⟨_, exec_bitblt clear x y w h hhead, State.bitBltStart_load ..⟩,
    ⟨_, exec_bitbltRle clear x y w h hhead, State.bitBltStart_load ..⟩⟩

/-! ## What the shared operations do to the parameters (R7, R38): nothing -/

@[simp] theorem State.latchFrame_params (s : State) (frame : List Byte) : (s.latchFrame frame).params = s.params := by
  cases frame <;> rfl

@[simp] theorem State.unknownOpcode_params (s : State) (h : Byte) : (s.unknownOpcode h).params = s.params := rfl

@[simp] theorem nopWith_params (reports : Bool) (s : State) : (nopWith reports s).params = s.params := by
  cases reports <;> rfl

@[simp] theorem State.fillRect_params (s : State) (l t r b : Coord) (c : Pixel) :
    (s.fillRect l t r b c).params = s.params := by
  rw [State.fillRect_eq]
  split <;> rfl

@[simp] theorem State.copyRect_params (s : State) (px : List Pixel) (sx sy dx dy w h : Coord) :
    (s.copyRect px sx sy dx dy w h).params = s.params := rfl

@[simp] theorem State.copyOom_params (s : State) (w h : Coord) : (s.copyOom w h).params = s.params := rfl

@[simp] theorem State.copyAreaWith_params (s : State) (cap : Nat) (answer : Nat → List Pixel)
    (sx sy dx dy w h : Coord) : (s.copyAreaWith cap answer sx sy dx dy w h).params = s.params := by
  rcases s.copyAreaWith_cases cap answer sx sy dx dy w h with ⟨-, heq⟩ | ⟨-, -, heq⟩ | ⟨-, -, heq⟩
  · rw [heq]
  · rw [heq, State.copyOom_params]
  · rw [heq, State.copyRect_params]

@[simp] theorem State.bitBltStart_params (s : State) (x y w h : Coord) :
    (s.bitBltStart x y w h).params = s.params := by
  rcases s.bitBltStart_cases x y w h with ⟨-, heq⟩ | ⟨-, heq⟩
  · rw [heq, State.complete_params]
  · rw [heq]

@[simp] theorem State.pixelByte_params (s : State) (d : Byte) : (s.pixelByte d).params = s.params := by
  rw [State.pixelByte_eq]
  split <;> rfl

@[simp] theorem State.rawByte_params (s : State) (d : Byte) : (s.rawByte d).params = s.params :=
  s.pixelByte_params d

/-- A content byte continues a literal block, or is one of the two colour bytes of a common block (R188 to R190). -/
@[simp] theorem State.rleContent_params (s : State) (d : Byte) : (s.rleContent d).params = s.params := by
  cases hmode : s.blkCommon
  case false => rw [State.rleContent_literal d hmode, State.rawByte_params]
  case true =>
    by_cases hpos : s.blkPos + 1#5 = s.blkRem - 1#5
    · rw [State.rleContent_colorLo d hmode hpos]
    · rw [State.rleContent_colorHi d hmode hpos]

@[simp] theorem State.finishPayload_params (s : State) : s.finishPayload.params = s.params := by
  rcases s.finishPayload_cases with ⟨-, heq⟩ | ⟨-, heq⟩
  · rw [heq, State.complete_params]
  · rw [heq]

/-- A step that pops and then applies an update keeping the parameters keeps them. -/
theorem withPop_next_params {s t : State} {f : State → State} (h : withPop s (fun _ u => .next (f u)) = .next t)
    (hf : ∀ u, (f u).params = u.params) : t.params = s.params := by
  obtain ⟨e, -, heq⟩ := withPop_next.1 h
  cases heq
  exact hf s.popped

theorem fifoStore_next_params {s t : State} {d : Byte} {sop : Bool} (h : fifoStore s d sop = .next t) :
    t.params = s.params := by
  rcases fifoStore_next h with ⟨-, rfl⟩ | ⟨-, lost, -, rfl⟩ <;> rfl

/-! ## The steps and the parameters -/

/-- Every instruction but STATUS pops an entry and updates the state through the operations above. -/
theorem exec_next_params {i : Instr} {s t : State} (h : exec i s = .next t) : t.params = s.params := by
  unfold exec at h
  cases i with
  | nop clear => exact withPop_next_params h fun u => by simp
  | fill clear color => exact withPop_next_params h fun u => by simp
  | rect clear l t r b color => exact withPop_next_params h fun u => by simp
  | copyArea clear sx sy dx dy w h' => exact withPop_next_params h fun u => by simp
  | bitblt clear x y w h' => exact withPop_next_params h fun u => by simp
  | bitbltRle clear x y w h' => exact withPop_next_params h fun u => by simp
  | unknownOpcode06 clear op => exact withPop_next_params h fun u => by simp
  | unknownOpcode08 clear op => exact withPop_next_params h fun u => by simp
  | unknownOpcode10 clear op => exact withPop_next_params h fun u => by simp
  | unknownOpcode20 clear op => exact withPop_next_params h fun u => by simp
  | nonFrame d => exact withPop_next_params h fun u => by simp
  | contBitblt start clear => exact withPop_next_params h fun u => rfl
  | contBitbltRle start clear => exact withPop_next_params h fun u => rfl
  | rleLiteral ignored size => exact withPop_next_params h fun u => by simp
  | rleCommon ignored size => exact withPop_next_params h fun u => by simp
  | status => cases h; exact s.sendStatus_params

/-- The Engine's step runs an instruction or takes one of the steps that complete none (R140). -/
theorem engineStep_next_params {s t : State} (h : engineStep s = .next t) : t.params = s.params := by
  unfold engineStep at h
  cases hfetch : fetch s <;> rw [hfetch] at h
  case boot => cases h; exact s.sendStatus_params
  case wait => cases h; rfl
  case stop f => cases h
  case run i => exact exec_next_params h
  case accept hd => exact withPop_next_params h fun u => by simp
  case argument d => exact withPop_next_params h fun u => by simp
  case drop => exact withPop_next_params h fun u => rfl
  case resync => cases h; rfl
  case desync d => cases h; exact s.syncError_params d
  case raw d => exact withPop_next_params h fun u => by simp
  case content d => exact withPop_next_params h fun u => by simp

/-- Whose step a step is: the Engine's, with a move for it or with none scheduled, the Producer's, or a Reset (R80). -/
theorem step_next_cases {s t : State} (h : step s = .next t) :
    (∃ r, (s.sched = [] ∧ r = [] ∨ s.sched = .engine :: r) ∧ engineStep { s with sched := r } = .next t) ∨
    (∃ d sop r, s.sched = .store d sop :: r ∧ fifoStore { s with sched := r } d sop = .next t) ∨
    (∃ r, s.sched = .reset :: r ∧ t = State.resetBlock { s with sched := r }) := by
  cases hsched : s.sched with
  | nil =>
    have hself : { s with sched := [] } = s := by rw [← hsched]
    exact .inl ⟨[], .inl ⟨rfl, rfl⟩, by rwa [hself, ← step_nil hsched]⟩
  | cons m r =>
    cases m with
    | engine => exact .inl ⟨r, .inr rfl, step_engine hsched ▸ h⟩
    | store d sop => exact .inr (.inl ⟨d, sop, r, rfl, step_store hsched ▸ h⟩)
    | reset =>
      rw [step_reset hsched] at h
      cases h
      exact .inr (.inr ⟨r, rfl, rfl⟩)

/-- The parameters are fixed over the steps of all three agents. -/
theorem step_next_params {s t : State} (h : step s = .next t) : t.params = s.params := by
  rcases step_next_cases h with ⟨r, -, hengine⟩ | ⟨d, sop, r, -, hstore⟩ | ⟨r, -, rfl⟩
  · exact (engineStep_next_params hengine).trans rfl
  · exact (fifoStore_next_params hstore).trans rfl
  · rfl

/-- Settles O40: by the agent whose step it is, then by what the Engine fetches, then by the instruction. -/
theorem parametersNeverChange : Obligations.ParametersNeverChange :=
  ⟨fun _ _ => step_next_params, fun _ _ _ => exec_next_params⟩

end Sys2Proof.Machine

/-! # State (10_state.md): Reset, the ring buffer, the invariant of every step, the status packets

Proofs of the statements on R24 to R35, R41, R42, R50, R72, R89, R153, R193, R194, R284 and R300. -/

/-! ## The ring buffer's registers and its three operations (R34, R35, R72 to R75) -/

namespace Sys2Proof.Machine

/-- The four elements that make up the ring buffer (R34, R35). -/
def State.ring (s : State) : Memory × BitVec 15 × BitVec 15 × BitVec 16 :=
  (s.fifoMem, s.fifoRd, s.fifoWr, s.fifoCount)

theorem State.ring_eq_iff {s t : State} : t.ring = s.ring ↔
    t.fifoMem = s.fifoMem ∧ t.fifoRd = s.fifoRd ∧ t.fifoWr = s.fifoWr ∧ t.fifoCount = s.fifoCount := by
  simp [State.ring]

/-- The state a store into a ring buffer with room leaves (R72). -/
def State.appended (s : State) (e : FifoEntry) : State :=
  { s with
    fifoMem := s.fifoMem.write s.fifoWr.toNat e
    fifoWr := s.fifoWr + 1#15
    fifoCount := s.fifoCount + 1#16 }

theorem fifoStore_of_room {s : State} {d : Byte} {sop : Bool} (h : s.fifoCount.toNat < 32768) :
    fifoStore s d sop = .next (s.appended ⟨d, sop⟩) :=
  if_pos h

theorem fifoStore_of_full {s : State} {d : Byte} {sop : Bool} {lost : FifoEntry} (h : 32768 ≤ s.fifoCount.toNat)
    (hlost : s.fifoMem.read s.fifoRd.toNat = some lost) :
    fifoStore s d sop = .next { s with
      fifoMem := s.fifoMem.write s.fifoWr.toNat ⟨d, sop⟩
      fifoWr := s.fifoWr + 1#15
      fifoRd := s.fifoRd + 1#15
      out := s.out ++ [.diag Config.diagFifoOverflow [lost.data]] } := by
  rw [fifoStore, if_neg (Nat.not_lt.2 h), hlost]
  rfl

theorem State.popped_count_toNat {s : State} (h : s.fifoCount ≠ 0#16) :
    s.popped.fifoCount.toNat = s.fifoCount.toNat - 1 := by
  rw [State.popped_fifoCount]
  bv_omega

theorem State.appended_count_toNat {s : State} (e : FifoEntry) (h : s.fifoCount.toNat < 32768) :
    (s.appended e).fifoCount.toNat = s.fifoCount.toNat + 1 := by
  show (s.fifoCount + 1#16).toNat = _
  bv_omega

/-- Different places of the ring buffer stand in different slots. -/
theorem slot_toNat_ne (rd : BitVec 15) {i k : Nat} (hi : i < 32768) (hk : k < 32768) (hne : i ≠ k) :
    (rd + BitVec.ofNat 15 i).toNat ≠ (rd + BitVec.ofNat 15 k).toNat := by
  simp only [BitVec.toNat_add, BitVec.toNat_ofNat]
  omega

/-- After a pop each entry stands one place nearer to the head (R75). -/
theorem State.popped_fifoSlot (s : State) (i : Nat) : s.popped.fifoSlot i = s.fifoSlot (i + 1) := by
  have hslot : s.fifoRd + 1#15 + BitVec.ofNat 15 i = s.fifoRd + BitVec.ofNat 15 (i + 1) := by
    rw [BitVec.add_assoc, Nat.add_comm i 1, BitVec.ofNat_add]
  simp only [State.fifoSlot, State.popped_fifoMem, State.popped_fifoRd, hslot]

end Sys2Proof.Machine

namespace Sys2Proof.Safety

open Sys2Proof.Machine

/-! ### What keeps the ring buffer's invariant (R34, R35) -/

/-- The invariant of the ring buffer speaks of its four elements only. -/
theorem RingInv.of_ring_eq {s t : State} (hs : RingInv s) (h : t.ring = s.ring) : RingInv t := by
  obtain ⟨hmem, hrd, hwr, hcount⟩ := State.ring_eq_iff.1 h
  refine ⟨by rw [hmem]; exact hs.canonical, by rw [hcount]; exact hs.count_le, ?_, fun i hi => ?_⟩
  · rw [hwr, hrd, hcount]; exact hs.indices
  · rw [State.fifoSlot, hmem, hrd]
    exact hs.occupied i (hcount ▸ hi)

/-- The write index points at the slot after the last occupied one. -/
theorem RingInv.wr_eq {s : State} (hs : RingInv s) : s.fifoWr = s.fifoRd + BitVec.ofNat 15 s.fifoCount.toNat := by
  rw [hs.indices]; rfl

/-- Where an entry is counted there is one at the head (R74). -/
theorem RingInv.exists_head {s : State} (hs : RingInv s) (h : s.fifoCount ≠ 0#16) : ∃ e, s.fifoHead? = some e := by
  have hpos : 0 < s.fifoCount.toNat := by bv_omega
  obtain ⟨e, he⟩ := Option.isSome_iff_exists.1 (hs.occupied 0 hpos)
  rw [State.fifoSlot, BitVec.add_zero] at he
  exact ⟨e, State.fifoHead?_some.2 ⟨h, he⟩⟩

theorem RingInv.popped {s : State} (hs : RingInv s) (h : s.fifoCount ≠ 0#16) : RingInv s.popped := by
  have hcount := State.popped_count_toNat h
  refine ⟨hs.canonical, by have := hs.count_le; omega, ?_, fun i hi => ?_⟩
  · have hwr := hs.indices
    simp only [State.popped_fifoWr, State.popped_fifoRd, State.popped_fifoCount, hwr]
    bv_omega
  · rw [State.popped_fifoSlot]
    exact hs.occupied (i + 1) (by omega)

/-- A store leaves the occupied entries in their places and puts its own after them (R72). -/
theorem RingInv.appended_fifoSlot {s : State} (hs : RingInv s) (e : FifoEntry) (hroom : s.fifoCount.toNat < 32768)
    {i : Nat} (hi : i ≤ s.fifoCount.toNat) :
    (s.appended e).fifoSlot i = if i = s.fifoCount.toNat then some e else s.fifoSlot i := by
  show (s.fifoMem.write s.fifoWr.toNat e).read (s.fifoRd + BitVec.ofNat 15 i).toNat = _
  rw [hs.wr_eq]
  split
  next heq => rw [heq, Memory.read_write_same]
  next hne => exact Memory.read_write_other _ _ (slot_toNat_ne _ (by omega) hroom hne)

theorem RingInv.appended {s : State} (hs : RingInv s) (e : FifoEntry) (hroom : s.fifoCount.toNat < 32768) :
    RingInv (s.appended e) := by
  have hcount := State.appended_count_toNat e hroom
  refine ⟨Memory.write_wf e s.fifoWr.isLt hs.canonical, by omega, ?_, fun i hi => ?_⟩
  · show s.fifoWr + 1#15 = s.fifoRd + (s.fifoCount + 1#16).setWidth 15
    rw [hs.indices]
    bv_omega
  · rw [hs.appended_fifoSlot e hroom (by omega)]
    split
    next => rfl
    next => exact hs.occupied i (by omega)

/-- The entries after a store: those before it, then its own (R72, R77). -/
theorem RingInv.appended_contents {s : State} (hs : RingInv s) (e : FifoEntry) (hroom : s.fifoCount.toNat < 32768) :
    (s.appended e).fifoContents = s.fifoContents ++ [some e] := by
  have hold : (List.range s.fifoCount.toNat).map (s.appended e).fifoSlot = s.fifoContents :=
    List.map_congr_left fun i hi => by
      have hlt := List.mem_range.1 hi
      rw [hs.appended_fifoSlot e hroom hlt.le, if_neg hlt.ne]
  have hnew := hs.appended_fifoSlot e hroom le_rfl
  rw [if_pos rfl] at hnew
  rw [State.fifoContents, State.appended_count_toNat e hroom, List.range_succ, List.map_append, hold,
    List.map_singleton, hnew]

/-- A store into a full ring buffer leaves it as a pop and then a store would (R73). -/
theorem RingInv.store {s : State} (hs : RingInv s) (d : Byte) (sop : Bool) :
    ∃ t, fifoStore s d sop = .next t ∧ RingInv t := by
  by_cases hroom : s.fifoCount.toNat < 32768
  · exact ⟨_, fifoStore_of_room hroom, hs.appended _ hroom⟩
  · have hne : s.fifoCount ≠ 0#16 := by bv_omega
    obtain ⟨lost, hhead⟩ := hs.exists_head hne
    have hcount := State.popped_count_toNat hne
    have hle := hs.count_le
    refine ⟨_, fifoStore_of_full (Nat.not_lt.1 hroom) (State.fifoHead?_some.1 hhead).2,
      ((hs.popped hne).appended ⟨d, sop⟩ (by omega)).of_ring_eq (State.ring_eq_iff.2 ?_)⟩
    refine ⟨rfl, rfl, rfl, ?_⟩
    show s.fifoCount = s.fifoCount - 1#16 + 1#16
    rw [BitVec.sub_add_cancel]

/-! ## A packet arrives in order (R41, R72) -/

theorem packetEntries_length (bs : List Byte) : (packetEntries bs).length = bs.length := by
  cases bs <;> simp [packetEntries]

/-- The entries of a packet are its bytes, the first tagged (R41). -/
theorem packetEntries_map_some (bs : List Byte) :
    (packetEntries bs).map some = bs.mapIdx fun k b => some ⟨b, decide (k = 0)⟩ := by
  cases bs with
  | nil => rfl
  | cons b bs =>
    have hrest : (bs.mapIdx fun k b => some (⟨b, decide (k + 1 = 0)⟩ : FifoEntry))
        = bs.map fun d => some ⟨d, false⟩ :=
      List.ext_getElem (by simp) (by simp)
    rw [packetEntries, List.mapIdx_cons, hrest, List.map_cons, List.map_map]
    rfl

/-- A run whose first step succeeds goes on from the state after it. -/
theorem run_succ {s t : State} {k : Nat} (h : step s = .next t) :
    Host.Core.run Sys2Proof.core (k + 1) s = Host.Core.run Sys2Proof.core k t := by
  have hstep : Sys2Proof.core.step s = .next t := h
  simp only [Host.Core.run, hstep]

/-- What a Store move does while there is room (R72). -/
theorem step_store_append {s : State} {e : FifoEntry} {r : List Move} (hring : RingInv s)
    (hsched : s.sched = .store e.data e.sop :: r) (hroom : s.fifoCount.toNat < 32768) :
    ∃ t, step s = .next t ∧ RingInv t ∧ t.sched = r ∧ t.out = s.out ∧
      t.fifoCount.toNat = s.fifoCount.toNat + 1 ∧ t.fifoContents = s.fifoContents ++ [some e] := by
  have hmoved : RingInv { s with sched := r } := hring.of_ring_eq rfl
  exact ⟨_, (step_store hsched).trans (fifoStore_of_room hroom), hmoved.appended e hroom, rfl, rfl,
    State.appended_count_toNat e hroom, hmoved.appended_contents e hroom⟩

/-- Stores of entries for which there is room append exactly those entries. -/
theorem run_stores_append (es : List FifoEntry) (r : List Move) {s : State} (hring : RingInv s)
    (hsched : s.sched = es.map (fun e => .store e.data e.sop) ++ r) (hroom : s.fifoCount.toNat + es.length ≤ 32768) :
    ∃ t, Host.Core.run Sys2Proof.core es.length s = .next t ∧ t.sched = r ∧ t.out = s.out ∧
      t.fifoContents = s.fifoContents ++ es.map some := by
  induction es generalizing s with
  | nil => exact ⟨s, rfl, hsched, rfl, by simp⟩
  | cons e es ih =>
    rw [List.length_cons] at hroom
    obtain ⟨u, hstep, huring, husched, huout, hucount, hucontents⟩ := step_store_append hring hsched (by omega)
    obtain ⟨t, hrun, hr, hout, hcontents⟩ := ih huring husched (by omega)
    refine ⟨t, (run_succ hstep).trans hrun, hr, hout.trans huout, ?_⟩
    rw [hcontents, hucontents, List.append_assoc]
    rfl

/-- Settles O33: the packet's moves are stores of its entries. -/
theorem packetArrivesInOrder : Obligations.PacketArrivesInOrder := by
  intro s bs r hring hsched hroom
  rw [← packetEntries_length bs] at hroom ⊢
  rw [← packetEntries_map_some]
  exact run_stores_append (packetEntries bs) r hring hsched hroom

/-! ## Reset (R50, R350) -/

/-- Settles O31: a Reset move is `Reset`, which gives the block's elements their reset values. -/
theorem resetSetsTheStatedValues : Obligations.ResetSetsTheStatedValues := by
  intro s r hsched
  exact ⟨_, step_reset hsched, rfl, rfl, rfl, rfl, rfl, rfl, rfl, rfl, rfl, rfl, rfl, rfl, rfl, rfl, rfl⟩

/-- After a Reset the ring buffer is empty and the framer idle, so only the parameters' own condition is left. -/
theorem inv_resetBlock {s : State} (hparams : s.params.valid = true) : Inv s.resetBlock where
  ring := ⟨rfl, by simp [State.reset], rfl, fun i hi => absurd hi (by simp [State.reset])⟩
  frame := ⟨by simp [State.reset], by simp [State.reset], by simp [State.reset], fun _ => rfl, by simp [State.reset]⟩
  decoder := ⟨by simp [State.reset], rfl, by simp [State.reset], by simp [State.reset], by simp [State.reset],
    by simp [State.reset], by simp [State.reset]⟩
  copybuf_le := Nat.zero_le _
  params := hparams

/-- Settles O36: a Reset leaves the reset state as it is. -/
theorem resetSatisfiesTheInvariant : Obligations.ResetSatisfiesTheInvariant :=
  show Inv State.reset.resetBlock from inv_resetBlock (by decide)

/-! ## What an Engine step can do to the ring buffer, the copy buffer and the output ports

The updates between a pop and a completion leave the ring buffer as it is, keep the copy buffer within its size and
offer no status packet; an Engine step is the boot step, or such updates after at most one pop, and then possibly a
completion. -/

/-- An update as the handlers make them before a completion. -/
structure Quiet (s t : State) : Prop where
  ring : t.ring = s.ring
  copybuf_le : s.copybuf.length ≤ Config.copyBufPixels → t.copybuf.length ≤ Config.copyBufPixels
  out : ∃ ts, t.out = s.out ++ ts ∧ statusCount ts = 0

theorem Quiet.of_eq {s t : State} (hring : t.ring = s.ring) (hcopybuf : t.copybuf = s.copybuf)
    (hout : t.out = s.out) : Quiet s t :=
  ⟨hring, fun h => hcopybuf ▸ h, [], by rw [hout, List.append_nil], rfl⟩

theorem Quiet.refl (s : State) : Quiet s s := .of_eq rfl rfl rfl

theorem Quiet.trans {s t u : State} (hst : Quiet s t) (htu : Quiet t u) : Quiet s u := by
  obtain ⟨ts, hts, hcount⟩ := hst.out
  obtain ⟨us, hus, hcount'⟩ := htu.out
  refine ⟨htu.ring.trans hst.ring, fun h => htu.copybuf_le (hst.copybuf_le h), ts ++ us, ?_, ?_⟩
  · rw [hus, hts, List.append_assoc]
  · rw [statusCount_append, hcount, hcount']

/-- Transactions without a status packet are quiet. -/
theorem Quiet.of_emits {s t : State} (ts : List Transaction) (hring : t.ring = s.ring)
    (hcopybuf : t.copybuf = s.copybuf) (hout : t.out = s.out ++ ts) (hts : statusCount ts = 0) : Quiet s t :=
  ⟨hring, fun h => hcopybuf ▸ h, ts, hout, hts⟩

theorem statusCount_eq_zero {ts : List Transaction} (h : ∀ t ∈ ts, t.isStatus = false) : statusCount ts = 0 := by
  rw [statusCount, List.length_eq_zero_iff, List.filter_eq_nil_iff]
  exact fun t ht => by rw [h t ht]; decide

theorem quiet_latchFrame (s : State) (frame : List Byte) : Quiet s (s.latchFrame frame) := by
  cases frame <;> exact .of_eq rfl rfl rfl

theorem quiet_takeError (s : State) (code : Byte) (info : List Byte) (target : Fsm) :
    Quiet s (s.takeError code info target) :=
  .of_emits [.diag code info] rfl rfl rfl rfl

theorem quiet_syncError (s : State) (d : Byte) : Quiet s (s.syncError d) :=
  .of_emits [.diag Config.diagSyncError [(opcodeOf s.hdr).setWidth 8, d]] rfl rfl rfl rfl

theorem quiet_fillRect (s : State) (l t r b : Coord) (c : Pixel) : Quiet s (s.fillRect l t r b c) := by
  rw [State.fillRect_eq]
  split
  · exact .of_emits [.fillRect l t r b c] rfl rfl rfl rfl
  · exact .refl s

/-- A copy that fits the copy buffer leaves it no longer than it was or than its size (R245, R246). -/
theorem quiet_copyAreaWith (s : State) (answer : Nat → List Pixel) (sx sy dx dy w h : Coord)
    (hanswer : ∀ n, (answer n).length = n) :
    Quiet s (s.copyAreaWith Config.copyBufPixels answer sx sy dx dy w h) := by
  rcases s.copyAreaWith_cases Config.copyBufPixels answer sx sy dx dy w h with
    ⟨-, heq⟩ | ⟨-, -, heq⟩ | ⟨-, hfits, heq⟩ <;> rw [heq]
  · exact .refl s
  · exact .of_emits [.diag Config.diagCopyOom [loByte w, hiByte w, loByte h, hiByte h]] rfl rfl rfl rfl
  · rw [State.copyRect_eq s sx sy dx dy w h (hanswer _)]
    refine ⟨rfl, fun hle => ?_, _, rfl, statusCount_eq_zero fun t ht => ?_⟩
    · simp only [List.length_append, List.length_drop, hanswer]
      omega
    · simp only [List.mem_append, List.mem_cons, List.not_mem_nil, or_false, List.mem_map] at ht
      obtain (rfl | rfl) | ⟨p, -, rfl⟩ := ht <;> rfl

theorem quiet_pixelByte (s : State) (d : Byte) : Quiet s (s.pixelByte d) := by
  rw [State.pixelByte_eq]
  split
  · exact .of_emits [.pushPixel (le16 s.pxLo d)] rfl rfl rfl rfl
  · exact .of_eq rfl rfl rfl

theorem quiet_rawByte (s : State) (d : Byte) : Quiet s (s.rawByte d) :=
  (quiet_pixelByte s d).trans (.of_eq rfl rfl rfl)

theorem quiet_rleHeader (s : State) (common : Bool) (size : BitVec 3) : Quiet s (s.rleHeader common size) :=
  .of_eq rfl rfl rfl

/-- A content byte is half a literal pixel, or one of the two colour bytes of a common block (R188 to R190). -/
theorem quiet_rleContent (s : State) (d : Byte) : Quiet s (s.rleContent d) := by
  cases hmode : s.blkCommon
  case false =>
    rw [State.rleContent_literal d hmode]
    have hcursor : Quiet s { s with blkPos := s.blkPos + 1#5 } := .of_eq rfl rfl rfl
    exact hcursor.trans (quiet_rawByte _ d)
  case true =>
    by_cases hpos : s.blkPos + 1#5 = s.blkRem - 1#5
    · rw [State.rleContent_colorLo d hmode hpos]
      exact .of_eq rfl rfl rfl
    · rw [State.rleContent_colorHi d hmode hpos]
      refine .of_emits _ rfl rfl rfl (statusCount_eq_zero fun t ht => ?_)
      rw [List.eq_of_mem_replicate ht]
      rfl

/-- What a handler does: quiet updates, and then it completes or not (R258). -/
inductive Handled (s : State) : State → Prop where
  | pending {u : State} (h : Quiet s u) : Handled s u
  | completed {u : State} (h : Quiet s u) : Handled s u.complete

theorem handled_nopWith {s u : State} (reports : Bool) (h : Quiet s u) : Handled s (nopWith reports u) := by
  cases reports
  · exact .pending h
  · exact .completed h

theorem handled_bitBltStart {s u : State} (x y w h : Coord) (hu : Quiet s u) :
    Handled s (u.bitBltStart x y w h) := by
  rcases u.bitBltStart_cases x y w h with ⟨-, heq⟩ | ⟨-, heq⟩ <;> rw [heq]
  · exact .completed (hu.trans (.of_eq rfl rfl rfl))
  · exact .pending (hu.trans (.of_emits [.setWindow x y w h] rfl rfl rfl rfl))

theorem handled_finishPayload {s u : State} (h : Quiet s u) : Handled s u.finishPayload := by
  rcases u.finishPayload_cases with ⟨-, heq⟩ | ⟨-, heq⟩ <;> rw [heq]
  · exact .completed h
  · exact .pending h

/-- A step that pops and then handles the entry. -/
theorem handled_of_withPop {s t : State} {f : State → State} (h : withPop s (fun _ u => .next (f u)) = .next t)
    (hf : ∀ u, Handled u (f u)) : s.fifoCount ≠ 0#16 ∧ Handled s.popped t := by
  obtain ⟨e, hhead, heq⟩ := withPop_next.1 h
  cases heq
  exact ⟨(State.fifoHead?_some.1 hhead).1, hf s.popped⟩

/-- Every instruction but STATUS pops one entry and handles it. -/
theorem exec_next_handled {i : Instr} {s t : State} (hi : i ≠ .status) (h : exec i s = .next t) :
    s.fifoCount ≠ 0#16 ∧ Handled s.popped t := by
  unfold exec at h
  cases i with
  | nop clear => exact handled_of_withPop h fun u => handled_nopWith _ (quiet_latchFrame u _)
  | fill clear color =>
    exact handled_of_withPop h fun u =>
      .completed ((quiet_latchFrame u _).trans (.of_emits [.fillScreen color] rfl rfl rfl rfl))
  | rect clear l t r b color =>
    exact handled_of_withPop h fun u => .completed ((quiet_latchFrame u _).trans (quiet_fillRect ..))
  | copyArea clear sx sy dx dy w h' =>
    exact handled_of_withPop h fun u =>
      .completed ((quiet_latchFrame u _).trans (quiet_copyAreaWith _ _ sx sy dx dy w h' u.sinkAnswer_length))
  | bitblt clear x y w h' => exact handled_of_withPop h fun u => handled_bitBltStart x y w h' (quiet_latchFrame u _)
  | bitbltRle clear x y w h' => exact handled_of_withPop h fun u => handled_bitBltStart x y w h' (quiet_latchFrame u _)
  | unknownOpcode06 clear op =>
    exact handled_of_withPop h fun u => .pending ((quiet_latchFrame u _).trans (quiet_takeError ..))
  | unknownOpcode08 clear op =>
    exact handled_of_withPop h fun u => .pending ((quiet_latchFrame u _).trans (quiet_takeError ..))
  | unknownOpcode10 clear op =>
    exact handled_of_withPop h fun u => .pending ((quiet_latchFrame u _).trans (quiet_takeError ..))
  | unknownOpcode20 clear op =>
    exact handled_of_withPop h fun u => .pending ((quiet_latchFrame u _).trans (quiet_takeError ..))
  | nonFrame d => exact handled_of_withPop h fun u => .pending (quiet_takeError u ..)
  | contBitblt start clear => exact handled_of_withPop h fun u => .pending (.refl u)
  | contBitbltRle start clear => exact handled_of_withPop h fun u => .pending (.refl u)
  | rleLiteral ignored size => exact handled_of_withPop h fun u => .pending (quiet_rleHeader u false size)
  | rleCommon ignored size => exact handled_of_withPop h fun u => .pending (quiet_rleHeader u true size)
  | status => exact absurd rfl hi

/-! ### What is fetched (R140, R161) -/

theorem decodeRle_eq (d : Byte) : decodeRle d =
    if d.getLsbD 7 then .rleCommon ((d >>> 3).setWidth 4) (d.setWidth 3)
    else .rleLiteral ((d >>> 3).setWidth 4) (d.setWidth 3) := rfl

/-- A command frame, known or unknown, is read in the header position (R103, R127). -/
theorem frameOf_readIn (p : Config.Params) (c : Bool) (op : BitVec 6) (as : List Byte) :
    (frameOf p c op as).readIn p .scan = true := by
  unfold frameOf unknownRow
  split_ifs <;> rfl

/-- What decodes in the header position is an instruction of that position (R121). -/
theorem decode_scan_readIn {p : Config.Params} {bs rest : List Byte} {i : Instr}
    (h : decode p .scan bs = .ok (i, rest)) : i.readIn p .scan = true := by
  cases bs with
  | nil => simp [decode] at h
  | cons b bs =>
    cases hstart : frameStart b with
    | false =>
      rw [decode_scan_nonFrame hstart] at h
      cases h
      rfl
    | true =>
      by_cases hlen : bs.length < need p (opcodeOf b)
      · rw [decode_scan_short hstart hlen] at h
        cases h
      · rw [decode_scan_whole hstart (Nat.not_lt.1 hlen)] at h
        cases h
        exact frameOf_readIn ..

/-- What a byte of the stream may be fetched as: not the boot step, and not STATUS, which is an output packet (R120,
R283). -/
def FromStream (a : Action) : Prop := a ≠ .boot ∧ a ≠ .run .status

theorem fromStream_run {i : Instr} (h : i ≠ .status) : FromStream (.run i) :=
  ⟨nofun, fun heq => h (Action.run.inj heq)⟩

/-- STATUS is not read in the header position. -/
theorem ne_status_of_readIn_scan {p : Config.Params} {i : Instr} (h : i.readIn p .scan = true) : i ≠ .status := by
  rintro rfl
  cases h

theorem fetchScan_fromStream (s : State) (d : Byte) : FromStream (fetchScan s d) := by
  unfold fetchScan
  split
  next i rest hdecode => exact fromStream_run (ne_status_of_readIn_scan (decode_scan_readIn hdecode))
  next => exact ⟨nofun, nofun⟩

theorem fetchHeader_fromStream (s : State) (d : Byte) : FromStream (fetchHeader s d) := by
  unfold fetchHeader
  split
  next i hdecode => exact fromStream_run (ne_status_of_readIn_scan (decode_scan_readIn hdecode))
  next => exact ⟨nofun, nofun⟩
  next => exact ⟨nofun, nofun⟩

theorem fetchContinuation_fromStream (s : State) (d : Byte) : FromStream (fetchContinuation s d) := by
  unfold fetchContinuation
  split
  next i hdecode =>
    obtain ⟨-, ⟨-, rfl⟩ | ⟨-, rfl⟩⟩ := decodeCont_some hdecode <;> exact fromStream_run nofun
  next => exact ⟨nofun, nofun⟩

theorem fetchPayload_fromStream (s : State) (d : Byte) : FromStream (fetchPayload s d) := by
  unfold fetchPayload
  split_ifs
  · exact ⟨nofun, nofun⟩
  · exact ⟨nofun, nofun⟩
  · rw [decodeRle_eq]
    split <;> exact fromStream_run nofun
  · exact ⟨nofun, nofun⟩

theorem fetch_boot {s : State} (h : s.bootPending = true) : fetch s = .boot := if_pos h

/-- With the ring buffer empty the Engine waits (R142). -/
theorem fetch_wait {s : State} (hb : s.bootPending = false) (h : s.fifoCount = 0#16) : fetch s = .wait := by
  simp [fetch, hb, h]

theorem fetch_noEntry {s : State} (hb : s.bootPending = false) (hcount : s.fifoCount ≠ 0#16)
    (hhead : s.fifoHead? = none) : fetch s = .stop .noEntry := by
  simp [fetch, hb, hcount, hhead]

theorem fetch_fromStream {s : State} (hb : s.bootPending = false) : FromStream (fetch s) := by
  by_cases hcount : s.fifoCount = 0#16
  · rw [fetch_wait hb hcount]
    exact ⟨nofun, nofun⟩
  cases hhead : s.fifoHead? with
  | none =>
    rw [fetch_noEntry hb hcount hhead]
    exact ⟨nofun, nofun⟩
  | some e =>
    rw [fetch_head hb hhead]
    cases s.fsm with
    | scan => exact fetchScan_fromStream s e.data
    | discard => cases e.sop <;> exact ⟨nofun, nofun⟩
    | header => exact fetchHeader_fromStream s e.data
    | payload =>
      cases e.sop
      · exact fetchPayload_fromStream s e.data
      · exact fetchContinuation_fromStream s e.data

/-! ### The Engine's step and every agent's step -/

/-- What an Engine step does (R82, R140): the boot step, quiet updates of the state as it is, or the handling of the
entry it popped. -/
inductive EngineEffect (s : State) : State → Prop where
  | boot (h : s.bootPending = true) : EngineEffect s { s.sendStatus with bootPending := false }
  | unpopped {t : State} (h : Quiet s t) : EngineEffect s t
  | popped {t : State} (hcount : s.fifoCount ≠ 0#16) (h : Handled s.popped t) : EngineEffect s t

/-- A step that pops and then handles the entry. -/
theorem EngineEffect.of_withPop {s t : State} {f : State → State}
    (h : withPop s (fun _ u => .next (f u)) = .next t) (hf : ∀ u, Handled u (f u)) : EngineEffect s t :=
  have ⟨hcount, hhandled⟩ := handled_of_withPop h hf
  .popped hcount hhandled

theorem engineStep_next_effect {s t : State} (h : engineStep s = .next t) : EngineEffect s t := by
  cases hb : s.bootPending with
  | true =>
    rw [engineStep, fetch_boot hb] at h
    cases h
    exact .boot hb
  | false =>
    obtain ⟨hboot, hstatus⟩ := fetch_fromStream hb
    unfold engineStep at h
    cases hfetch : fetch s <;> rw [hfetch] at h
    case boot => exact absurd hfetch hboot
    case wait => cases h; exact .unpopped (.refl s)
    case stop f => cases h
    case run i =>
      have ⟨hcount, hhandled⟩ := exec_next_handled (fun hi => hstatus (hi ▸ hfetch)) h
      exact .popped hcount hhandled
    case accept hd => exact .of_withPop (show acceptStep s hd = _ from h) fun u => .pending (.of_eq rfl rfl rfl)
    case argument d => exact .of_withPop (show argumentStep s d = _ from h) fun u => .pending (.of_eq rfl rfl rfl)
    case drop => exact .of_withPop h fun u => .pending (.refl u)
    case resync => cases h; exact .unpopped (.of_eq rfl rfl rfl)
    case desync d => cases h; exact .unpopped (quiet_syncError s d)
    case raw d => exact .of_withPop h fun u => handled_finishPayload (quiet_rawByte u d)
    case content d => exact .of_withPop h fun u => handled_finishPayload (quiet_rleContent u d)

/-! ### The ring buffer and the copy buffer after an Engine step -/

theorem Handled.ring {s t : State} (h : Handled s t) : t.ring = s.ring := by
  cases h with
  | pending hquiet => exact hquiet.ring
  | completed hquiet => exact hquiet.ring

theorem Handled.copybuf_le {s t : State} (h : Handled s t) (hle : s.copybuf.length ≤ Config.copyBufPixels) :
    t.copybuf.length ≤ Config.copyBufPixels := by
  cases h with
  | pending hquiet => exact hquiet.copybuf_le hle
  | completed hquiet => exact hquiet.copybuf_le hle

/-- The Engine touches the ring buffer by popping one entry or not at all (R82). -/
theorem EngineEffect.ring {s t : State} (h : EngineEffect s t) :
    t.ring = s.ring ∨ (s.fifoCount ≠ 0#16 ∧ t.ring = s.popped.ring) := by
  cases h with
  | boot hb => exact .inl rfl
  | unpopped hquiet => exact .inl hquiet.ring
  | popped hcount hhandled => exact .inr ⟨hcount, hhandled.ring⟩

theorem EngineEffect.fifoMem {s t : State} (h : EngineEffect s t) : t.fifoMem = s.fifoMem := by
  obtain hring | ⟨-, hring⟩ := h.ring
  · exact (State.ring_eq_iff.1 hring).1
  · exact (State.ring_eq_iff.1 hring).1

theorem EngineEffect.ringInv {s t : State} (h : EngineEffect s t) (hs : RingInv s) : RingInv t := by
  obtain hring | ⟨hcount, hring⟩ := h.ring
  · exact hs.of_ring_eq hring
  · exact (hs.popped hcount).of_ring_eq hring

theorem EngineEffect.copybuf_le {s t : State} (h : EngineEffect s t)
    (hle : s.copybuf.length ≤ Config.copyBufPixels) : t.copybuf.length ≤ Config.copyBufPixels := by
  cases h with
  | boot hb => exact hle
  | unpopped hquiet => exact hquiet.copybuf_le hle
  | popped hcount hhandled => exact hhandled.copybuf_le hle

/-- Settles O38: only a store writes the storage, at one of the 32768 slots, and a Reset empties it. -/
theorem stepKeepsTheStorageCanonical : Obligations.StepKeepsTheStorageCanonical := by
  intro s t hwf hstep
  rcases step_next_cases hstep with ⟨r, -, hengine⟩ | ⟨d, sop, r, -, hstore⟩ | ⟨r, -, rfl⟩
  · rw [(engineStep_next_effect hengine).fifoMem]
    exact hwf
  · rcases fifoStore_next hstore with ⟨-, rfl⟩ | ⟨-, lost, -, rfl⟩ <;> exact Memory.write_wf _ s.fifoWr.isLt hwf
  · exact State.reset_fifoMem_wf

/-! ## What a step offers on port status (R42, R284) -/

theorem buildStatus_eq_statusOf (dirty : Bool) : buildStatus dirty = statusOf dirty := by
  cases dirty <;> rfl

/-- What a step sends: no status packet, or one, last, that reports the DIRTY it leaves and is of the boot step or of a
completion. -/
def OffersAtMostOne (s t : State) : Prop :=
  (∃ ts, t.out = s.out ++ ts ∧ statusCount ts = 0) ∨
  ((s.bootPending = true ∨ t.fsm = .scan) ∧
    ∃ ts, t.out = s.out ++ ts ++ [.statusOut (statusOf t.dirty)] ∧ statusCount ts = 0)

theorem Handled.offers {s u t : State} (h : Handled u t) (hout : u.out = s.out) : OffersAtMostOne s t := by
  cases h with
  | pending hquiet => exact .inl (hout ▸ hquiet.out)
  | @completed v hquiet =>
    obtain ⟨ts, hts, hcount⟩ := hquiet.out
    refine .inr ⟨.inr rfl, ts, ?_, hcount⟩
    rw [← buildStatus_eq_statusOf, ← hout, ← hts]
    rfl

theorem EngineEffect.offers {s t : State} (h : EngineEffect s t) : OffersAtMostOne s t := by
  cases h with
  | boot hb =>
    refine .inr ⟨.inl hb, [], ?_, rfl⟩
    rw [List.append_nil, ← buildStatus_eq_statusOf]
    rfl
  | unpopped hquiet => exact .inl hquiet.out
  | popped hcount hhandled => exact hhandled.offers rfl

theorem step_next_offers {s t : State} (h : step s = .next t) : OffersAtMostOne s t := by
  rcases step_next_cases h with ⟨r, -, hengine⟩ | ⟨d, sop, r, -, hstore⟩ | ⟨r, -, rfl⟩
  · exact (engineStep_next_effect hengine).offers
  · rcases fifoStore_next hstore with ⟨-, rfl⟩ | ⟨-, lost, -, rfl⟩
    · exact .inl ⟨[], (List.append_nil _).symm, rfl⟩
    · exact .inl ⟨[.diag Config.diagFifoOverflow [lost.data]], rfl, rfl⟩
  · exact .inl ⟨[], (List.append_nil _).symm, rfl⟩

/-! ### What the host receives -/

theorem hostReceives_of_statusCount_zero (accepted : Nat → Bool) (k : Nat) {ts : List Transaction}
    (h : statusCount ts = 0) : hostReceives accepted k ts = [] := by
  induction ts with
  | nil => rfl
  | cons t ts ih =>
    cases t with
    | statusOut p => cases h
    | _ => exact ih h

/-- Fewer acceptances lose packets and change nothing else. -/
theorem hostReceives_sublist (accepted : Nat → Bool) (k j : Nat) (ts : List Transaction) :
    (hostReceives accepted k ts).Sublist (hostReceives (fun _ => true) j ts) := by
  induction ts generalizing k j with
  | nil => exact .slnil
  | cons t ts ih =>
    cases t with
    | statusOut p =>
      simp only [hostReceives, if_true]
      split
      · exact (ih ..).cons_cons p
      · exact (ih ..).cons p
    | _ => exact ih k j

/-- With every offer accepted the host receives all packets offered. -/
theorem hostReceives_all (k : Nat) (ts : List Transaction) :
    hostReceives (fun _ => true) k ts = ts.filterMap (fun t => match t with
      | .statusOut p => some p
      | _ => none) := by
  induction ts generalizing k with
  | nil => rfl
  | cons t ts ih =>
    cases t with
    | statusOut p => exact congrArg (p :: ·) (ih (k + 1))
    | _ => exact ih k

/-- What the host has received after a step (R284). -/
theorem OffersAtMostOne.received {s t : State} (h : OffersAtMostOne s t) (accepted : Nat → Bool) :
    (statusCount t.out = statusCount s.out ∧ hostReceives accepted 0 t.out = hostReceives accepted 0 s.out) ∨
    ((s.bootPending = true ∨ t.fsm = .scan) ∧ statusCount t.out = statusCount s.out + 1 ∧
      hostReceives accepted 0 t.out = hostReceives accepted 0 s.out ++
        (if accepted (statusCount s.out) then [statusOf t.dirty] else [])) := by
  rcases h with ⟨ts, hout, hcount⟩ | ⟨hby, ts, hout, hcount⟩
  · refine .inl ⟨by rw [hout, statusCount_append, hcount, Nat.add_zero], ?_⟩
    rw [hout, hostReceives_append, hostReceives_of_statusCount_zero _ _ hcount, List.append_nil]
  · refine .inr ⟨hby, by rw [hout, statusCount_append, statusCount_append, hcount]; rfl, ?_⟩
    rw [hout, hostReceives_append, hostReceives_append, hostReceives_of_statusCount_zero _ _ hcount, List.append_nil,
      statusCount_append, hcount]
    simp [hostReceives]

/-- A step adds to the transactions and takes none back. -/
theorem OffersAtMostOne.out_append {s t : State} (h : OffersAtMostOne s t) : ∃ ts, t.out = s.out ++ ts := by
  rcases h with ⟨ts, hout, -⟩ | ⟨-, ts, hout, -⟩
  · exact ⟨ts, hout⟩
  · exact ⟨_, hout.trans (List.append_assoc ..)⟩

/-- A run that ends in a state takes its first step to a state. -/
theorem run_succ_next {s t : State} {n : Nat} (h : Host.Core.run Sys2Proof.core (n + 1) s = .next t) :
    ∃ u, step s = .next u ∧ Host.Core.run Sys2Proof.core n u = .next t := by
  cases hstep : step s with
  | next u => exact ⟨u, rfl, (run_succ hstep).symm.trans h⟩
  | fault f =>
    have hcore : Sys2Proof.core.step s = .fault f := hstep
    simp [Host.Core.run, hcore] at h
  | refused f =>
    have hcore : Sys2Proof.core.step s = .refused f := hstep
    simp [Host.Core.run, hcore] at h

theorem run_next_out_append {n : Nat} {s t : State} (h : Host.Core.run Sys2Proof.core n s = .next t) :
    ∃ ts, t.out = s.out ++ ts := by
  induction n generalizing s with
  | zero => cases h; exact ⟨[], (List.append_nil _).symm⟩
  | succ n ih =>
    obtain ⟨u, hstep, hrun⟩ := run_succ_next h
    obtain ⟨us, hus⟩ := (step_next_offers hstep).out_append
    obtain ⟨ts, hts⟩ := ih hrun
    exact ⟨us ++ ts, by rw [hts, hus, List.append_assoc]⟩

/-- Settles O51: by what one step offers, by the transactions a run appends, and by what the host receives of a list. -/
theorem droppedStatusPacketsAreGone : Obligations.DroppedStatusPacketsAreGone := by
  refine ⟨fun accepted s t hstep => (step_next_offers hstep).received accepted, fun accepted k n s t hrun => ?_,
    fun k xs => hostReceives_all k xs⟩
  obtain ⟨ts, hts⟩ := run_next_out_append hrun
  exact ⟨hostReceives_sublist accepted k 0 t.out, ts, hts, by rw [hts, hostReceives_append]⟩

/-! ## The framer and the RLE decoder keep their invariant (R24 to R27, R147, R153, R193)

The invariant of a state is split by where the framer stands: `Idle` outside a BitBlt's payload, where nothing of a load
is left, and `Loaded` inside it, before the end of the step looks whether the load is used up. -/

/-- The parts of the invariant the framer's and the decoder's registers make up. -/
def Framed (s : State) : Prop := FrameInv s ∧ DecoderInv s

/-- The RLE cursors in every framer state (R26, R193). -/
structure CursorInv (rem pos : BitVec 5) (common : Bool) : Prop where
  rem_le : rem.toNat ≤ 16
  rem_even : rem.toNat % 2 = 0
  pos_le : pos.toNat ≤ rem.toNat
  common_open : common = true → pos.toNat < rem.toNat → rem.toNat ≤ pos.toNat + 2

/-- The registers outside the payload of a BitBlt. -/
structure Idle (s : State) : Prop where
  argcnt_le : s.argcnt.toNat ≤ 12
  load : s.remaining = 0#33
  cursor : CursorInv s.blkRem s.blkPos s.blkCommon

/-- The registers inside the payload of a BitBlt, whether anything of its load is left or not. -/
structure Loaded (s : State) : Prop where
  fsm : s.fsm = .payload
  argcnt_le : s.argcnt.toNat ≤ 12
  start : frameStart s.hdr = true
  opcode : opcodeOf s.hdr = s.params.opcBitblt ∨ opcodeOf s.hdr = s.params.opcBitbltRle
  load_le : s.remaining.toNat ≤ 8589672450
  cursor : CursorInv s.blkRem s.blkPos s.blkCommon
  parity : s.pxHalf = true ↔ s.remaining.toNat % 2 = 1
  whole : opcodeOf s.hdr = s.params.opcBitbltRle → s.blkRem.toNat ≤ s.blkPos.toNat ∨ s.blkCommon = true →
    s.pxHalf = false
  literal : opcodeOf s.hdr = s.params.opcBitbltRle → s.blkCommon = false → s.blkPos.toNat < s.blkRem.toNat →
    (s.pxHalf = true ↔ s.blkPos.toNat % 2 = 1)

theorem Framed.cursor {s : State} (h : Framed s) : CursorInv s.blkRem s.blkPos s.blkCommon :=
  ⟨h.2.rem_le, h.2.rem_even, h.2.pos_le, h.2.common_open⟩

theorem Framed.idle {s : State} (h : Framed s) (hfsm : s.fsm ≠ .payload) : Idle s :=
  ⟨h.1.argcnt_le, h.1.idle hfsm, h.cursor⟩

theorem Framed.loaded {s : State} (h : Framed s) (hfsm : s.fsm = .payload) : Loaded s :=
  have ⟨hstart, hop, _⟩ := h.1.payload hfsm
  ⟨hfsm, h.1.argcnt_le, hstart, hop, h.1.load_le, h.cursor, h.2.load_parity hfsm, h.2.rle_whole hfsm,
    h.2.rle_literal hfsm⟩

/-- The decoder's invariant outside PAYLOAD is that of its cursors. -/
theorem CursorInv.decoderInv {s : State} (h : CursorInv s.blkRem s.blkPos s.blkCommon)
    (hfsm : s.fsm ≠ .payload) : DecoderInv s :=
  ⟨h.rem_le, h.rem_even, h.pos_le, h.common_open, fun hp => absurd hp hfsm, fun hp => absurd hp hfsm,
    fun hp => absurd hp hfsm⟩

theorem Idle.framed_of_header {s : State} (h : Idle s) (hfsm : s.fsm = .header) (hstart : frameStart s.hdr = true)
    (hdue : s.argcnt.toNat < need s.params (opcodeOf s.hdr)) : Framed s := by
  have hne : s.fsm ≠ .payload := by rw [hfsm]; decide
  exact ⟨⟨h.argcnt_le, fun _ => ⟨hstart, hdue⟩, fun hp => absurd hp hne, fun _ => h.load, by rw [h.load]; decide⟩,
    h.cursor.decoderInv hne⟩

theorem Idle.framed {s : State} (h : Idle s) (hfsm : s.fsm = .scan ∨ s.fsm = .discard) : Framed s := by
  have hheader : s.fsm ≠ .header := by rcases hfsm with hfsm | hfsm <;> rw [hfsm] <;> decide
  have hpayload : s.fsm ≠ .payload := by rcases hfsm with hfsm | hfsm <;> rw [hfsm] <;> decide
  exact ⟨⟨h.argcnt_le, fun hp => absurd hp hheader, fun hp => absurd hp hpayload, fun _ => h.load,
    by rw [h.load]; decide⟩, h.cursor.decoderInv hpayload⟩

theorem Loaded.framed {s : State} (h : Loaded s) (hrem : s.remaining ≠ 0#33) : Framed s := by
  have hheader : s.fsm ≠ .header := by rw [h.fsm]; decide
  exact ⟨⟨h.argcnt_le, fun hp => absurd hp hheader, fun _ => ⟨h.start, h.opcode, hrem⟩,
    fun hp => absurd h.fsm hp, h.load_le⟩,
    ⟨h.cursor.rem_le, h.cursor.rem_even, h.cursor.pos_le, h.cursor.common_open, fun _ => h.parity, fun _ => h.whole,
      fun _ => h.literal⟩⟩

/-! ### What these parts do not speak of -/

/-- The registers of `Idle`. -/
def idleRegs (s : State) : BitVec 4 × BitVec 33 × BitVec 5 × BitVec 5 × Bool :=
  (s.argcnt, s.remaining, s.blkRem, s.blkPos, s.blkCommon)

/-- The registers of `Framed`. -/
def framerRegs (s : State) : Fsm × Byte × Bool × Config.Params × BitVec 4 × BitVec 33 × BitVec 5 × BitVec 5 × Bool :=
  (s.fsm, s.hdr, s.pxHalf, s.params, idleRegs s)

theorem Idle.of_regs_eq {s t : State} (hs : Idle s) (h : idleRegs t = idleRegs s) : Idle t := by
  simp only [idleRegs, Prod.mk.injEq] at h
  obtain ⟨hcnt, hload, hrem, hpos, hcommon⟩ := h
  exact ⟨hcnt ▸ hs.argcnt_le, hload ▸ hs.load, hrem ▸ hpos ▸ hcommon ▸ hs.cursor⟩

theorem Framed.of_regs_eq {s t : State} (hs : Framed s) (h : framerRegs t = framerRegs s) : Framed t := by
  obtain ⟨hframe, hdecoder⟩ := hs
  cases s
  cases t
  cases h
  exact ⟨⟨hframe.argcnt_le, hframe.header, hframe.payload, hframe.idle, hframe.load_le⟩,
    ⟨hdecoder.rem_le, hdecoder.rem_even, hdecoder.pos_le, hdecoder.common_open, hdecoder.load_parity,
      hdecoder.rle_whole, hdecoder.rle_literal⟩⟩

@[simp] theorem fillRect_idleRegs (s : State) (l t r b : Coord) (c : Pixel) :
    idleRegs (s.fillRect l t r b c) = idleRegs s := by
  rw [State.fillRect_eq]
  split <;> rfl

@[simp] theorem copyAreaWith_idleRegs (s : State) (cap : Nat) (answer : Nat → List Pixel)
    (sx sy dx dy w h : Coord) : idleRegs (s.copyAreaWith cap answer sx sy dx dy w h) = idleRegs s := by
  rcases s.copyAreaWith_cases cap answer sx sy dx dy w h with ⟨-, heq⟩ | ⟨-, -, heq⟩ | ⟨-, -, heq⟩ <;> rw [heq] <;> rfl

/-! ### The handlers outside PAYLOAD -/

theorem encode_length_le (p : Config.Params) (i : Instr) : (encode p i).length ≤ 13 := by
  cases i <;> simp [encode]

/-- No fixed header has more than 12 argument bytes (R24, R104). -/
theorem Idle.latchFrame {s : State} (h : Idle s) (p : Config.Params) (i : Instr) :
    Idle (s.latchFrame (encode p i)) := by
  have hlen := encode_length_le p i
  cases hframe : encode p i with
  | nil => exact h
  | cons b as =>
    rw [hframe, List.length_cons] at hlen
    refine ⟨?_, h.load, h.cursor⟩
    rw [State.latchFrame_cons_argcnt, BitVec.toNat_ofNat]
    omega

theorem Idle.complete {s : State} (h : Idle s) : Framed s.complete :=
  Idle.framed (h.of_regs_eq rfl) (.inl rfl)

theorem Idle.takeError {s : State} (h : Idle s) (code : Byte) (info : List Byte) :
    Framed (s.takeError code info .discard) :=
  Idle.framed (h.of_regs_eq rfl) (.inr rfl)

theorem Idle.nopWith {s : State} (h : Idle s) (hfsm : s.fsm = .scan) (reports : Bool) :
    Framed (nopWith reports s) := by
  cases reports
  · exact h.framed (.inl hfsm)
  · exact h.complete

/-- A BitBlt starts with an even load, no RLE block and no latched byte (R250, R252). -/
theorem Idle.bitBltStart {s : State} (hs : Idle s) (hstart : frameStart s.hdr = true)
    (hop : opcodeOf s.hdr = s.params.opcBitblt ∨ opcodeOf s.hdr = s.params.opcBitbltRle) (x y w h : Coord) :
    Framed (s.bitBltStart x y w h) := by
  have hcursor : CursorInv 0#5 0#5 s.blkCommon := ⟨by decide, by decide, le_rfl, fun _ hlt => absurd hlt (lt_irrefl _)⟩
  rcases s.bitBltStart_cases x y w h with ⟨-, heq⟩ | ⟨hne, heq⟩ <;> rw [heq]
  · exact Idle.complete ⟨hs.argcnt_le, rfl, hcursor⟩
  · have hload := load_toNat w h
    refine Loaded.framed ⟨rfl, hs.argcnt_le, hstart, hop, ?_, hcursor, ?_, fun _ _ => rfl, fun _ _ hlt => ?_⟩ hne
    · exact hload.trans_le (two_mul_area_le w h)
    · show false = true ↔ (BitVec.ofNat 33 (area w h * 2)).toNat % 2 = 1
      rw [hload]
      simp
    · exact absurd hlt (lt_irrefl _)

/-- A step that pops and then handles the entry leaves the framer as its handler does. -/
theorem framed_of_withPop {s : State} {e : FifoEntry} {f : State → State} (hhead : s.fifoHead? = some e)
    (h : Framed (f s.popped)) : ∃ t, withPop s (fun _ u => .next (f u)) = .next t ∧ Framed t :=
  ⟨_, withPop_some hhead, h⟩

/-- An instruction of the header position leaves the framer and the decoder in order; a NOP's header byte is met in
SCAN only (R151, R240). -/
theorem exec_scan_framed {i : Instr} {s : State} {e : FifoEntry} (hread : i.readIn s.params .scan = true)
    (hs : Framed s) (hfsm : s.fsm ≠ .payload) (hnop : ∀ c, i = .nop c → s.fsm = .scan)
    (hhead : s.fifoHead? = some e) : ∃ t, exec i s = .next t ∧ Framed t := by
  have hidle : Idle s.popped := (hs.idle hfsm).of_regs_eq rfl
  have hlatched := hidle.latchFrame s.params i
  unfold exec
  cases i with
  | nop clear => exact framed_of_withPop hhead (hlatched.nopWith (hnop clear rfl) _)
  | fill clear color => exact framed_of_withPop hhead (Idle.complete (hlatched.of_regs_eq rfl))
  | rect clear l t r b color =>
    exact framed_of_withPop hhead (Idle.complete (hlatched.of_regs_eq (fillRect_idleRegs ..)))
  | copyArea clear sx sy dx dy w h =>
    exact framed_of_withPop hhead (Idle.complete (hlatched.of_regs_eq (copyAreaWith_idleRegs ..)))
  | bitblt clear x y w h =>
    exact framed_of_withPop hhead
      (hlatched.bitBltStart (frameStart_mkHeader ..) (.inl (opcodeOf_mkHeader ..)) x y w h)
  | bitbltRle clear x y w h =>
    exact framed_of_withPop hhead
      (hlatched.bitBltStart (frameStart_mkHeader ..) (.inr (opcodeOf_mkHeader ..)) x y w h)
  | unknownOpcode06 clear op => exact framed_of_withPop hhead (hlatched.takeError ..)
  | unknownOpcode08 clear op => exact framed_of_withPop hhead (hlatched.takeError ..)
  | unknownOpcode10 clear op => exact framed_of_withPop hhead (hlatched.takeError ..)
  | unknownOpcode20 clear op => exact framed_of_withPop hhead (hlatched.takeError ..)
  | nonFrame d => exact framed_of_withPop hhead (hidle.takeError ..)
  | contBitblt start clear => cases hread
  | contBitbltRle start clear => cases hread
  | rleLiteral ignored size => cases hread
  | rleCommon ignored size => cases hread
  | status => cases hread

/-! ### The handlers in PAYLOAD -/

theorem Loaded.of_regs_eq {s t : State} (hs : Loaded s) (h : framerRegs t = framerRegs s) : Loaded t := by
  simp only [framerRegs, idleRegs, Prod.mk.injEq] at h
  obtain ⟨hfsm, hhdr, hpx, hparams, hcnt, hload, hrem, hpos, hcommon⟩ := h
  constructor <;> simp only [hfsm, hhdr, hpx, hparams, hcnt, hload, hrem, hpos, hcommon]
  exacts [hs.fsm, hs.argcnt_le, hs.start, hs.opcode, hs.load_le, hs.cursor, hs.parity, hs.whole, hs.literal]

/-- The end of a PayloadStep: PAYLOAD goes on, or the load is used up and the command completes (R154). -/
theorem Loaded.finishPayload {s : State} (h : Loaded s) : Framed s.finishPayload := by
  rcases s.finishPayload_cases with ⟨hzero, heq⟩ | ⟨hne, heq⟩ <;> rw [heq]
  · exact Idle.complete ⟨h.argcnt_le, hzero, h.cursor⟩
  · exact h.framed hne

/-- Half a pixel: the latch turns over and the load drops by 1 (R181, R211). -/
theorem rawByte_framerRegs (s : State) (d : Byte) : framerRegs (s.rawByte d)
    = framerRegs { s with pxHalf := !s.pxHalf, remaining := s.remaining - 1#33 } := by
  show framerRegs { s.pixelByte d with remaining := (s.pixelByte d).remaining - 1#33 } = _
  rw [State.pixelByte_eq]
  split <;> simp [framerRegs, idleRegs, *]

theorem remaining_pred {s : State} (h : s.remaining ≠ 0#33) :
    (s.remaining - 1#33).toNat + 1 = s.remaining.toNat := by
  bv_omega

/-- Half a pixel turns the latch over with the parity of the load. -/
theorem Loaded.parity_pred {s : State} (hs : Loaded s) (hrem : s.remaining ≠ 0#33) :
    (!s.pxHalf) = true ↔ (s.remaining - 1#33).toNat % 2 = 1 := by
  have hpred := remaining_pred hrem
  rw [Bool.not_eq_true', ← Bool.not_eq_true, hs.parity]
  omega

theorem Loaded.rawByte {s : State} (hs : Loaded s) (hrem : s.remaining ≠ 0#33)
    (hop : opcodeOf s.hdr ≠ s.params.opcBitbltRle) (d : Byte) : Loaded (s.rawByte d) := by
  have hpred := remaining_pred hrem
  have hle := hs.load_le
  refine Loaded.of_regs_eq ?_ (rawByte_framerRegs s d)
  exact ⟨hs.fsm, hs.argcnt_le, hs.start, hs.opcode, show (s.remaining - 1#33).toNat ≤ _ by omega, hs.cursor,
    hs.parity_pred hrem, fun h => absurd h hop, fun h => absurd h hop⟩

/-- A block is opened with 2 to 16 content bytes, of which a common block has its last 2 to come (R186). -/
theorem cursorInv_rleHeader (common : Bool) (size : BitVec 3) :
    CursorInv ((size.setWidth 5 + 1#5) * 2#5) (if common then (size.setWidth 5 + 1#5) * 2#5 - 2#5 else 0#5) common :=
  ⟨by revert size; decide, by revert size; decide, by revert common size; decide, by revert common size; decide⟩

/-- The block boundary is a pixel boundary, where a literal block begins with its first half pixel (R186, R193). -/
theorem Loaded.rleHeader {s : State} (hs : Loaded s) (hend : s.blkRem.toNat ≤ s.blkPos.toNat)
    (hop : opcodeOf s.hdr = s.params.opcBitbltRle) (common : Bool) (size : BitVec 3) :
    Loaded (s.rleHeader common size) := by
  have hpx : s.pxHalf = false := hs.whole hop (.inl hend)
  refine ⟨hs.fsm, hs.argcnt_le, hs.start, hs.opcode, hs.load_le, cursorInv_rleHeader common size, hs.parity,
    fun _ _ => hpx, ?_⟩
  intro _ hcommon _
  obtain rfl : common = false := hcommon
  show s.pxHalf = true ↔ (0#5).toNat % 2 = 1
  simp [hpx]

/-- The cursor of an open block moves on by 1. -/
theorem CursorInv.pos_succ {rem pos : BitVec 5} {common : Bool} (h : CursorInv rem pos common)
    (hopen : pos.toNat < rem.toNat) : (pos + 1#5).toNat = pos.toNat + 1 := by
  have hle := h.rem_le
  bv_omega

theorem CursorInv.advance {rem pos : BitVec 5} {common : Bool} (h : CursorInv rem pos common)
    (hopen : pos.toNat < rem.toNat) : CursorInv rem (pos + 1#5) common := by
  have hsucc := h.pos_succ hopen
  refine ⟨h.rem_le, h.rem_even, by omega, fun hcommon _ => ?_⟩
  have hlast := h.common_open hcommon hopen
  omega

/-- A literal byte is half a pixel, and the cursor's parity is that of the latch (R190). -/
theorem Loaded.literalByte {s : State} (hs : Loaded s) (hrem : s.remaining ≠ 0#33) (hmode : s.blkCommon = false)
    (hopen : s.blkPos.toNat < s.blkRem.toNat) (hop : opcodeOf s.hdr = s.params.opcBitbltRle) (d : Byte) :
    Loaded (s.rleContent d) := by
  have hpred := remaining_pred hrem
  have hle := hs.load_le
  have hsucc := hs.cursor.pos_succ hopen
  have heven := hs.cursor.rem_even
  have hpx := hs.literal hop hmode hopen
  rw [State.rleContent_literal d hmode]
  refine Loaded.of_regs_eq ?_ (rawByte_framerRegs _ d)
  refine ⟨hs.fsm, hs.argcnt_le, hs.start, hs.opcode, show (s.remaining - 1#33).toNat ≤ _ by omega,
    hs.cursor.advance hopen, hs.parity_pred hrem, fun _ hclosed => ?_, fun _ _ _ => ?_⟩
  · have hlast : s.blkRem.toNat ≤ (s.blkPos + 1#5).toNat :=
      hclosed.resolve_right (by show s.blkCommon ≠ true; rw [hmode]; decide)
    show (!s.pxHalf) = false
    rw [Bool.not_eq_false', hpx]
    omega
  · show (!s.pxHalf) = true ↔ (s.blkPos + 1#5).toNat % 2 = 1
    rw [Bool.not_eq_true', ← Bool.not_eq_true, hpx]
    omega

/-- A colour byte of a common block leaves the latch empty; its second takes an even number off the load, no more than
is left (R188, R189, R191). -/
theorem Loaded.colorByte {s : State} (hs : Loaded s) (hmode : s.blkCommon = true)
    (hopen : s.blkPos.toNat < s.blkRem.toNat) (hop : opcodeOf s.hdr = s.params.opcBitbltRle) (d : Byte) :
    Loaded (s.rleContent d) := by
  have hpx : s.pxHalf = false := hs.whole hop (.inr hmode)
  have hcursor := hs.cursor.advance hopen
  have hnotLiteral (h : s.blkCommon = false) : False := by rw [hmode] at h; cases h
  by_cases hpos : s.blkPos + 1#5 = s.blkRem - 1#5
  · rw [State.rleContent_colorLo d hmode hpos]
    exact ⟨hs.fsm, hs.argcnt_le, hs.start, hs.opcode, hs.load_le, hcursor, hs.parity, fun _ _ => hpx,
      fun _ h => (hnotLiteral h).elim⟩
  · rw [State.rleContent_colorHi d hmode hpos]
    have hrun : s.runLength ≤ s.remaining.toNat / 2 := min_le_right _ _
    have hload : (s.remaining - BitVec.ofNat 33 (2 * s.runLength)).toNat
        = s.remaining.toNat - 2 * s.runLength := by
      have hfits : (BitVec.ofNat 33 (2 * s.runLength)).toNat = 2 * s.runLength := by
        rw [BitVec.toNat_ofNat, Nat.mod_eq_of_lt (by omega)]
      rw [BitVec.toNat_sub_of_le (BitVec.le_def.2 (by omega)), hfits]
    have hle := hs.load_le
    have hparity := hs.parity
    refine ⟨hs.fsm, hs.argcnt_le, hs.start, hs.opcode, ?_, hcursor, ?_, fun _ _ => hpx,
      fun _ h => (hnotLiteral h).elim⟩
    · show (s.remaining - BitVec.ofNat 33 (2 * s.runLength)).toNat ≤ _
      omega
    · show s.pxHalf = true ↔ (s.remaining - BitVec.ofNat 33 (2 * s.runLength)).toNat % 2 = 1
      rw [hparity, hload]
      omega

theorem Loaded.rleContent {s : State} (hs : Loaded s) (hrem : s.remaining ≠ 0#33)
    (hopen : s.blkPos.toNat < s.blkRem.toNat) (hop : opcodeOf s.hdr = s.params.opcBitbltRle) (d : Byte) :
    Loaded (s.rleContent d) := by
  cases hmode : s.blkCommon with
  | false => exact hs.literalByte hrem hmode hopen hop d
  | true => exact hs.colorByte hmode hopen hop d

/-! ### The Engine's step by the framer's state (R140, R161) -/

/-- SCAN runs what is whole with its first byte, and accepts a header byte with arguments (R143, R144, R150, R151). -/
theorem fetchScan_cases (s : State) (d : Byte) :
    (∃ i, fetchScan s d = .run i ∧ i.readIn s.params .scan = true) ∨
    (fetchScan s d = .accept d ∧ frameStart d = true ∧ 0 < need s.params (opcodeOf d)) := by
  unfold fetchScan
  cases hstart : frameStart d with
  | false =>
    rw [decode_scan_nonFrame hstart]
    exact .inl ⟨_, rfl, rfl⟩
  | true =>
    rcases Nat.eq_zero_or_pos (need s.params (opcodeOf d)) with hneed | hneed
    · rw [decode_scan_whole hstart hneed.le]
      exact .inl ⟨_, rfl, frameOf_readIn ..⟩
    · rw [decode_scan_short (as := []) hstart hneed]
      exact .inr ⟨rfl, rfl, hneed⟩

/-- NOP's opcode takes no arguments (R104). -/
theorem frameOf_ne_nop {p : Config.Params} {op : BitVec 6} (h : 0 < need p op) (c c' : Bool) (as : List Byte) :
    frameOf p c op as ≠ .nop c' := by
  have hop : op ≠ p.opcNop := by
    rintro rfl
    simp [need] at h
  unfold frameOf unknownRow
  rw [if_neg hop]
  split_ifs <;> exact nofun

/-- HEADER runs the frame with its last argument byte, and takes every byte before it (R147, R152). -/
theorem fetchHeader_cases {s : State} (d : Byte) (hstart : frameStart s.hdr = true) (hcnt : s.argcnt.toNat ≤ 12)
    (hdue : s.argcnt.toNat < need s.params (opcodeOf s.hdr)) :
    (∃ i, fetchHeader s d = .run i ∧ i.readIn s.params .scan = true ∧ ∀ c, i ≠ .nop c) ∨
    (fetchHeader s d = .argument d ∧ s.argcnt.toNat + 1 < need s.params (opcodeOf s.hdr)) := by
  have hlen : (s.args.toList.take s.argcnt.toNat ++ [d]).length = s.argcnt.toNat + 1 := by
    simp [hcnt]
  unfold fetchHeader State.frameBytes
  rcases Nat.lt_or_ge (s.argcnt.toNat + 1) (need s.params (opcodeOf s.hdr)) with hmore | hlast
  · rw [decode_scan_short hstart (hlen.trans_lt hmore)]
    exact .inr ⟨rfl, hmore⟩
  · have hrest : (s.args.toList.take s.argcnt.toNat ++ [d]).drop (need s.params (opcodeOf s.hdr)) = [] :=
      List.drop_of_length_le (by omega)
    rw [decode_scan_whole hstart (by omega), hrest]
    exact .inl ⟨_, rfl, frameOf_readIn .., fun c => frameOf_ne_nop (Nat.zero_lt_of_lt hdue) _ c _⟩

/-- A packet start in PAYLOAD is a continuation byte or a synchronization error (R155, R156). -/
theorem fetchContinuation_cases (s : State) (d : Byte) :
    (∃ start clear, fetchContinuation s d = .run (.contBitblt start clear)) ∨
    (∃ start clear, fetchContinuation s d = .run (.contBitbltRle start clear)) ∨
    fetchContinuation s d = .desync d := by
  unfold fetchContinuation
  split
  next i hdecode =>
    obtain ⟨-, ⟨-, rfl⟩ | ⟨-, rfl⟩⟩ := decodeCont_some hdecode
    · exact .inl ⟨_, _, rfl⟩
    · exact .inr (.inl ⟨_, _, rfl⟩)
  next => exact .inr (.inr rfl)

theorem scanStep_framed {s : State} {e : FifoEntry} (hs : Framed s) (hfsm : s.fsm = .scan)
    (hhead : s.fifoHead? = some e) (hfetch : fetch s = fetchScan s e.data) :
    ∃ t, engineStep s = .next t ∧ Framed t := by
  have hne : s.fsm ≠ .payload := by rw [hfsm]; decide
  rcases fetchScan_cases s e.data with ⟨i, hrun, hread⟩ | ⟨haccept, hstart, hneed⟩
  · rw [engineStep_run (hfetch.trans hrun)]
    exact exec_scan_framed hread hs hne (fun _ _ => hfsm) hhead
  · rw [engineStep, hfetch, haccept]
    have hidle := hs.idle hne
    have hstarted : Idle { s.popped.startFrame e.data with fsm := .header } :=
      ⟨show (0#4).toNat ≤ 12 by decide, hidle.load, hidle.cursor⟩
    exact ⟨_, withPop_some hhead, hstarted.framed_of_header rfl hstart hneed⟩

theorem headerStep_framed {s : State} {e : FifoEntry} (hs : Framed s) (hfsm : s.fsm = .header)
    (hhead : s.fifoHead? = some e) (hfetch : fetch s = fetchHeader s e.data) :
    ∃ t, engineStep s = .next t ∧ Framed t := by
  have hne : s.fsm ≠ .payload := by rw [hfsm]; decide
  obtain ⟨hstart, hdue⟩ := hs.1.header hfsm
  rcases fetchHeader_cases e.data hstart hs.1.argcnt_le hdue with ⟨i, hrun, hread, hnop⟩ | ⟨hargument, hmore⟩
  · rw [engineStep_run (hfetch.trans hrun)]
    exact exec_scan_framed hread hs hne (fun c heq => absurd heq (hnop c)) hhead
  · rw [engineStep, hfetch, hargument]
    have hidle := hs.idle hne
    have hcnt : (s.popped.pushArg e.data).argcnt.toNat = s.argcnt.toNat + 1 := by
      have hle := hs.1.argcnt_le
      rw [State.pushArg_argcnt, State.popped_argcnt]
      bv_omega
    have hpushed : Idle (s.popped.pushArg e.data) :=
      ⟨by have := need_le_twelve s.params (opcodeOf s.hdr); omega, hidle.load, hidle.cursor⟩
    exact ⟨_, withPop_some hhead, hpushed.framed_of_header hfsm hstart (hcnt.trans_lt hmore)⟩

theorem discardStep_framed {s : State} {e : FifoEntry} (hs : Framed s) (hfsm : s.fsm = .discard)
    (hhead : s.fifoHead? = some e) (hfetch : fetch s = if e.sop then .resync else .drop) :
    ∃ t, engineStep s = .next t ∧ Framed t := by
  have hidle := hs.idle (by rw [hfsm]; decide)
  cases hsop : e.sop <;> rw [hsop] at hfetch <;> rw [engineStep, hfetch]
  · exact ⟨_, withPop_some hhead, hs.of_regs_eq rfl⟩
  · have hscan : Idle { s with fsm := .scan } := hidle.of_regs_eq rfl
    exact ⟨_, rfl, hscan.framed (.inl rfl)⟩

theorem continuationStep_framed {s : State} {e : FifoEntry} (hs : Framed s)
    (hhead : s.fifoHead? = some e) (hfetch : fetch s = fetchContinuation s e.data) :
    ∃ t, engineStep s = .next t ∧ Framed t := by
  rcases fetchContinuation_cases s e.data with ⟨start, clear, hrun⟩ | ⟨start, clear, hrun⟩ | hdesync
  · rw [engineStep_run (hfetch.trans hrun)]
    exact ⟨_, withPop_some hhead, hs.of_regs_eq rfl⟩
  · rw [engineStep_run (hfetch.trans hrun)]
    exact ⟨_, withPop_some hhead, hs.of_regs_eq rfl⟩
  · rw [engineStep, hfetch, hdesync]
    exact ⟨_, rfl, Idle.framed ⟨hs.1.argcnt_le, rfl, hs.cursor⟩ (.inl rfl)⟩

/-- The opcodes of the two BitBlts are different (log 20). -/
theorem opcBitblt_ne_opcBitbltRle {p : Config.Params} (h : p.valid = true) : p.opcBitblt ≠ p.opcBitbltRle := by
  have hnodup := Config.Params.valid_iff.1 h
  simp only [Config.Params.opcodes, Config.Params.withArguments, List.nodup_cons, List.mem_cons] at hnodup
  tauto

/-- An RLE block header byte opens a block by its two fields (R186). -/
theorem exec_decodeRle {s : State} {e : FifoEntry} (d : Byte) (hhead : s.fifoHead? = some e) :
    exec (decodeRle d) s = .next (s.popped.rleHeader (d.getLsbD 7) (d.setWidth 3)) := by
  rw [decodeRle_eq]
  cases d.getLsbD 7
  · exact withPop_some (k := fun _ u => .next (u.rleHeader false (d.setWidth 3))) hhead
  · exact withPop_some (k := fun _ u => .next (u.rleHeader true (d.setWidth 3))) hhead

/-- A byte inside a packet is a raw payload byte, an RLE block header or an RLE content byte (R154, R180, R185). -/
theorem payloadStep_framed {s : State} {e : FifoEntry} (hs : Framed s) (hvalid : s.params.valid = true)
    (hfsm : s.fsm = .payload) (hhead : s.fifoHead? = some e) (hfetch : fetch s = fetchPayload s e.data) :
    ∃ t, engineStep s = .next t ∧ Framed t := by
  obtain ⟨-, hop, hrem⟩ := hs.1.payload hfsm
  have hloaded : Loaded s.popped := (hs.loaded hfsm).of_regs_eq rfl
  rw [fetchPayload, if_neg hrem] at hfetch
  split_ifs at hfetch with hraw hend
  · have hnotRle : opcodeOf s.hdr ≠ s.params.opcBitbltRle := hraw ▸ opcBitblt_ne_opcBitbltRle hvalid
    rw [engineStep, hfetch]
    exact ⟨_, withPop_some hhead, (hloaded.rawByte hrem hnotRle e.data).finishPayload⟩
  · have hrle := hop.resolve_left hraw
    have hopened (common : Bool) (size : BitVec 3) : Framed (s.popped.rleHeader common size) :=
      (hloaded.rleHeader hend hrle common size).framed hrem
    rw [engineStep_run hfetch, exec_decodeRle e.data hhead]
    exact ⟨_, rfl, hopened ..⟩
  · have hrle := hop.resolve_left hraw
    rw [engineStep, hfetch]
    exact ⟨_, withPop_some hhead, (hloaded.rleContent hrem (Nat.lt_of_not_le hend) hrle e.data).finishPayload⟩

theorem headStep_framed {s : State} {e : FifoEntry} (hs : Framed s) (hvalid : s.params.valid = true)
    (hb : s.bootPending = false) (hhead : s.fifoHead? = some e) : ∃ t, engineStep s = .next t ∧ Framed t := by
  have hfetch := fetch_head hb hhead
  cases hfsm : s.fsm <;> simp only [hfsm] at hfetch
  case scan => exact scanStep_framed hs hfsm hhead hfetch
  case discard => exact discardStep_framed hs hfsm hhead hfetch
  case header => exact headerStep_framed hs hfsm hhead hfetch
  case payload =>
    cases hsop : e.sop <;> simp only [hsop] at hfetch
    · exact payloadStep_framed hs hvalid hfsm hhead hfetch
    · exact continuationStep_framed hs hhead hfetch

/-! ## Every step succeeds and keeps the invariant (R300) -/

theorem Inv.framed {s : State} (h : Inv s) : Framed s := ⟨h.frame, h.decoder⟩

theorem Inv.of_sched {s : State} (h : Inv s) (r : List Move) : Inv { s with sched := r } :=
  have ⟨hframe, hdecoder⟩ : Framed { s with sched := r } := h.framed.of_regs_eq rfl
  ⟨h.ring.of_ring_eq rfl, hframe, hdecoder, h.copybuf_le, h.params⟩

/-- The Engine has a step in every state with the invariant: the boot step, the wait, or one on the head entry. -/
theorem Inv.exists_engineStep {s : State} (h : Inv s) : ∃ t, engineStep s = .next t ∧ Framed t := by
  cases hb : s.bootPending with
  | true =>
    rw [engineStep, fetch_boot hb]
    exact ⟨_, rfl, h.framed.of_regs_eq rfl⟩
  | false =>
    by_cases hcount : s.fifoCount = 0#16
    · rw [engineStep, fetch_wait hb hcount]
      exact ⟨_, rfl, h.framed⟩
    · obtain ⟨e, hhead⟩ := h.ring.exists_head hcount
      exact headStep_framed h.framed h.params hb hhead

theorem Inv.engineStep {s : State} (h : Inv s) : ∃ t, engineStep s = .next t ∧ Inv t := by
  obtain ⟨t, hstep, hframe, hdecoder⟩ := h.exists_engineStep
  have heffect := engineStep_next_effect hstep
  exact ⟨t, hstep, heffect.ringInv h.ring, hframe, hdecoder, heffect.copybuf_le h.copybuf_le,
    engineStep_next_params hstep ▸ h.params⟩

/-- A store touches the ring buffer and port diag only (R72, R73). -/
theorem Inv.fifoStore {s : State} (h : Inv s) (d : Byte) (sop : Bool) : ∃ t, fifoStore s d sop = .next t ∧ Inv t := by
  obtain ⟨t, hstore, hring⟩ := h.ring.store d sop
  have hregs : framerRegs t = framerRegs s ∧ t.copybuf = s.copybuf := by
    rcases fifoStore_next hstore with ⟨-, rfl⟩ | ⟨-, lost, -, rfl⟩ <;> exact ⟨rfl, rfl⟩
  have ⟨hframe, hdecoder⟩ := h.framed.of_regs_eq hregs.1
  exact ⟨t, hstore, hring, hframe, hdecoder, hregs.2 ▸ h.copybuf_le, fifoStore_next_params hstore ▸ h.params⟩

/-- Settles O37: by the agent whose move is next. -/
theorem everyStepSucceedsAndKeepsTheInvariant : Obligations.EveryStepSucceedsAndKeepsTheInvariant := by
  intro s h
  cases hsched : s.sched with
  | nil =>
    rw [step_nil hsched]
    exact h.engineStep
  | cons m r =>
    have hmoved := h.of_sched r
    cases m with
    | engine =>
      rw [step_engine hsched]
      exact hmoved.engineStep
    | store d sop =>
      rw [step_store hsched]
      exact hmoved.fifoStore d sop
    | reset =>
      rw [step_reset hsched]
      exact ⟨_, rfl, inv_resetBlock h.params⟩

end Sys2Proof.Safety

/-! # The ring buffer and the agents (20_memory.md): stores and pops as a queue, what the Engine touches, what it sends

Proofs of the statements on R72, R73, R75 to R78, R80 to R83, R85, R86, R140, R285, R288, R300 and R308. -/

namespace Sys2Proof.Safety

open Sys2Proof.Machine

/-! ## The Producer's move (R72, R73) -/

/-- Settles O29: the Producer's move is a store with room. -/
theorem storeAppendsAnEntry : Obligations.StoreAppendsAnEntry := by
  intro s d p r hsched hroom
  exact ⟨_, (step_store hsched).trans (fifoStore_of_room hroom), Memory.read_write_same .., fun a ha =>
    Memory.read_write_other _ _ ha⟩

/-- Settles O30: the Producer's move is a store that finds the ring buffer full. -/
theorem storeIntoFullOverwritesTheOldest : Obligations.StoreIntoFullOverwritesTheOldest := by
  intro s d p r lost hsched hcount hlost
  have hfull : 32768 ≤ s.fifoCount.toNat := by simp [hcount]
  exact ⟨_, (step_store hsched).trans (fifoStore_of_full hfull hlost), Memory.read_write_same .., fun a ha =>
    Memory.read_write_other _ _ ha⟩

/-! ## The ring buffer is a queue (R77, R78)

The occupied entries, oldest first, are the queue. A pop takes its first entry off; a store puts its entry last, and a
store that finds the ring buffer full takes the first one off before. -/

theorem fifoContents_of_ring_eq {s t : State} (h : t.ring = s.ring) : t.fifoContents = s.fifoContents := by
  obtain ⟨hmem, hrd, -, hcount⟩ := State.ring_eq_iff.1 h
  have hslot : t.fifoSlot = s.fifoSlot := funext fun i => by rw [State.fifoSlot, State.fifoSlot, hmem, hrd]
  rw [State.fifoContents, State.fifoContents, hslot, hcount]

theorem fifoContents_length (s : State) : s.fifoContents.length = s.fifoCount.toNat := by
  simp [State.fifoContents]

/-- The head entry is the first of the occupied entries, and a pop leaves the others (R74, R75). -/
theorem fifoContents_eq_cons {s : State} (h : s.fifoCount ≠ 0#16) :
    s.fifoContents = s.fifoHead? :: s.popped.fifoContents := by
  have hcount : s.fifoCount.toNat = s.popped.fifoCount.toNat + 1 := by
    rw [State.popped_count_toNat h]
    bv_omega
  have hhead : s.fifoSlot 0 = s.fifoHead? := by
    rw [State.fifoSlot, State.fifoHead?, if_neg h, BitVec.add_zero]
  have hrest : s.fifoSlot ∘ Nat.succ = s.popped.fifoSlot := funext fun i => (s.popped_fifoSlot i).symm
  rw [State.fifoContents, hcount, List.range_succ_eq_map, List.map_cons, List.map_map, hhead, hrest]
  rfl

/-- A store that finds the ring buffer full leaves it as a pop and then a store with room would (R73). -/
theorem RingInv.fifoStore_full {s : State} (hs : RingInv s) (e : FifoEntry) (hfull : ¬ s.fifoCount.toNat < 32768) :
    ∃ t, fifoStore s e.data e.sop = .next t ∧ t.ring = (s.popped.appended e).ring := by
  have hne : s.fifoCount ≠ 0#16 := by bv_omega
  obtain ⟨lost, hhead⟩ := hs.exists_head hne
  refine ⟨_, fifoStore_of_full (Nat.not_lt.1 hfull) (State.fifoHead?_some.1 hhead).2, State.ring_eq_iff.2 ?_⟩
  exact ⟨rfl, rfl, rfl, (BitVec.sub_add_cancel s.fifoCount 1#16).symm⟩

/-- A store on the ring buffer is a store on the queue it holds (R77, R78). -/
theorem RingInv.store_contents {s : State} (hs : RingInv s) {q : List FifoEntry}
    (hq : s.fifoContents = q.map some) (e : FifoEntry) :
    ∃ t, fifoStore s e.data e.sop = .next t ∧ RingInv t ∧
      t.fifoContents = (if q.length < 32768 then q ++ [e] else q.tail ++ [e]).map some := by
  have hlen : q.length = s.fifoCount.toNat := by rw [← fifoContents_length, hq, List.length_map]
  rw [hlen]
  split
  next hroom =>
    refine ⟨_, fifoStore_of_room hroom, hs.appended e hroom, ?_⟩
    rw [hs.appended_contents e hroom, hq, List.map_append]
    rfl
  next hfull =>
    have hne : s.fifoCount ≠ 0#16 := by bv_omega
    have hpopped := hs.popped hne
    have hroom : s.popped.fifoCount.toNat < 32768 := by
      have hle := hs.count_le
      have hcount := State.popped_count_toNat hne
      omega
    obtain ⟨t, hstore, hring⟩ := hs.fifoStore_full e hfull
    have hrest : s.popped.fifoContents = q.tail.map some := by
      rw [List.map_tail, ← hq, fifoContents_eq_cons hne, List.tail_cons]
    refine ⟨t, hstore, (hpopped.appended e hroom).of_ring_eq hring, ?_⟩
    rw [fifoContents_of_ring_eq hring, hpopped.appended_contents e hroom, hrest, List.map_append]
    rfl

/-- A pop on the ring buffer is a pop on the queue it holds: it finds both empty, or takes the same entry (R75, R76). -/
theorem RingInv.pop_contents {s : State} (hs : RingInv s) {q : List FifoEntry} (hq : s.fifoContents = q.map some) :
    (s.fifoCount = 0#16 ∧ q = []) ∨
    (s.fifoCount ≠ 0#16 ∧ RingInv s.popped ∧
      ∃ e q', q = e :: q' ∧ s.fifoHead? = some e ∧ s.popped.fifoContents = q'.map some) := by
  by_cases hcount : s.fifoCount = 0#16
  · have hlen : q.length = 0 := by rw [← List.length_map (f := some), ← hq, fifoContents_length, hcount]; rfl
    exact .inl ⟨hcount, List.length_eq_zero_iff.1 hlen⟩
  · rw [fifoContents_eq_cons hcount] at hq
    obtain ⟨e, q', rfl, hhead, hrest⟩ := List.map_eq_cons_iff.1 hq.symm
    exact .inr ⟨hcount, hs.popped hcount, e, q', rfl, hhead.symm, hrest.symm⟩

/-- Settles O34: by induction on the operations, over the ring buffer and the queue it holds. -/
theorem ringBufferIsAQueue : Obligations.RingBufferIsAQueue := by
  intro ops
  induction ops with
  | nil => exact fun _ _ _ _ => rfl
  | cons op ops ih =>
    intro s q hs hq
    cases op with
    | store e =>
      obtain ⟨t, hstore, ht, hcontents⟩ := hs.store_contents hq e
      have hqueue : queuePops q (.store e :: ops)
          = queuePops (if q.length < 32768 then q ++ [e] else q.tail ++ [e]) ops := by
        rw [queuePops, apply_ite (queuePops · ops)]
      rw [hqueue, ringPops, hstore]
      exact ih t _ ht hcontents
    | pop =>
      rcases hs.pop_contents hq with ⟨hcount, rfl⟩ | ⟨hcount, hpopped, e, q', rfl, hhead, hrest⟩
      · rw [ringPops, if_pos hcount]
        exact ih s [] hs hq
      · rw [ringPops, if_neg hcount, hhead]
        exact congrArg (some e :: ·) (ih s.popped q' hpopped hrest)

/-! ## What the Engine touches of the ring buffer (R82, R83, R140) -/

/-- Settles O39: an Engine step leaves the four elements of the ring buffer, or pops. -/
theorem engineTouchesTheRingOnlyByPopping : Obligations.EngineTouchesTheRingOnlyByPopping := by
  intro s t hsched hstep
  rw [step_nil hsched] at hstep
  rcases (engineStep_next_effect hstep).ring with hring | ⟨hcount, hring⟩
  · obtain ⟨hmem, hrd, hwr, hcount⟩ := State.ring_eq_iff.1 hring
    exact ⟨hmem, hwr, .inl ⟨hrd, hcount⟩⟩
  · obtain ⟨hmem, hrd, hwr, hcount'⟩ := State.ring_eq_iff.1 hring
    exact ⟨hmem, hwr, .inr ⟨hcount, hrd, hcount'⟩⟩

end Sys2Proof.Safety

namespace Sys2Proof.Machine

/-! ## What the Engine does not look at (R80, R82, R86)

The Engine reads of the ring buffer the head entry and whether there is one, and of the moves nothing. A change of the
other parts commutes with its step, whatever the step is: the moves to come may be others, and entries may stand behind
those the Engine knows of. -/

/-- The parts of a state that lie behind what the Engine sees. -/
structure Surroundings where
  /-- The ring buffer storage. -/
  mem : Memory
  /-- The write index. -/
  wr : BitVec 15
  /-- How many entries stand behind those already counted. -/
  more : BitVec 16
  /-- The moves to come. -/
  moves : List Move

/-- `s` with other surroundings. -/
def State.within (s : State) (x : Surroundings) : State :=
  { s with fifoMem := x.mem, fifoWr := x.wr, fifoCount := s.fifoCount + x.more, sched := x.moves }

/-- The surroundings that put the moves `r` in place of a state's own. -/
def State.scheduling (s : State) (r : List Move) : Surroundings := ⟨s.fifoMem, s.fifoWr, 0#16, r⟩

/-- The surroundings that put the entry `e` behind the occupied ones. -/
def State.appending (s : State) (e : FifoEntry) : Surroundings :=
  ⟨s.fifoMem.write s.fifoWr.toNat e, s.fifoWr + 1#15, 1#16, s.sched⟩

theorem State.within_scheduling (s : State) (r : List Move) : s.within (s.scheduling r) = { s with sched := r } := by
  simp [State.within, State.scheduling]

theorem State.within_appending (s : State) (e : FifoEntry) : s.within (s.appending e) = s.appended e := rfl

/-! ### The updates of the handlers in other surroundings -/

@[simp] theorem State.within_params (s : State) (x : Surroundings) : (s.within x).params = s.params := rfl

@[simp] theorem State.within_remaining (s : State) (x : Surroundings) : (s.within x).remaining = s.remaining := rfl

@[simp] theorem State.within_sinkAnswer (s : State) (x : Surroundings) : (s.within x).sinkAnswer = s.sinkAnswer := rfl

@[simp] theorem State.within_emit (s : State) (x : Surroundings) (t : Transaction) :
    (s.within x).emit t = (s.emit t).within x := rfl

@[simp] theorem State.within_complete (s : State) (x : Surroundings) :
    (s.within x).complete = s.complete.within x := rfl

@[simp] theorem State.within_takeError (s : State) (x : Surroundings) (code : Byte) (info : List Byte) (target : Fsm) :
    (s.within x).takeError code info target = (s.takeError code info target).within x := rfl

@[simp] theorem State.within_unknownOpcode (s : State) (x : Surroundings) (h : Byte) :
    (s.within x).unknownOpcode h = (s.unknownOpcode h).within x := rfl

@[simp] theorem State.within_rleHeader (s : State) (x : Surroundings) (common : Bool) (size : BitVec 3) :
    (s.within x).rleHeader common size = (s.rleHeader common size).within x := rfl

@[simp] theorem State.within_latchFrame (s : State) (x : Surroundings) (frame : List Byte) :
    (s.within x).latchFrame frame = (s.latchFrame frame).within x := by
  cases frame <;> rfl

@[simp] theorem nopWith_within (reports : Bool) (s : State) (x : Surroundings) :
    nopWith reports (s.within x) = (nopWith reports s).within x := by
  cases reports <;> rfl

@[simp] theorem State.within_fillRect (s : State) (x : Surroundings) (l t r b : Coord) (c : Pixel) :
    (s.within x).fillRect l t r b c = (s.fillRect l t r b c).within x := by
  rw [State.fillRect_eq, State.fillRect_eq]
  split <;> rfl

@[simp] theorem State.within_copyAreaWith (s : State) (x : Surroundings) (cap : Nat) (answer : Nat → List Pixel)
    (sx sy dx dy w h : Coord) : (s.within x).copyAreaWith cap answer sx sy dx dy w h =
      (s.copyAreaWith cap answer sx sy dx dy w h).within x := by
  unfold State.copyAreaWith
  split_ifs <;> rfl

@[simp] theorem State.within_bitBltStart (s : State) (x : Surroundings) (px py w h : Coord) :
    (s.within x).bitBltStart px py w h = (s.bitBltStart px py w h).within x := by
  unfold State.bitBltStart
  dsimp only
  split <;> rfl

@[simp] theorem State.within_rawByte (s : State) (x : Surroundings) (d : Byte) :
    (s.within x).rawByte d = (s.rawByte d).within x := by
  have hpixel : (s.within x).pixelByte d = (s.pixelByte d).within x := by
    rw [State.pixelByte_eq, State.pixelByte_eq, apply_ite (State.within · x)]
    rfl
  simp only [State.rawByte, hpixel]
  rfl

@[simp] theorem State.within_rleContent (s : State) (x : Surroundings) (d : Byte) :
    (s.within x).rleContent d = (s.rleContent d).within x := by
  cases hmode : s.blkCommon
  case false =>
    rw [State.rleContent_literal (s := s) d hmode, State.rleContent_literal (s := s.within x) d hmode,
      ← State.within_rawByte]
    rfl
  case true =>
    by_cases hpos : s.blkPos + 1#5 = s.blkRem - 1#5
    · rw [State.rleContent_colorLo (s := s) d hmode hpos, State.rleContent_colorLo (s := s.within x) d hmode hpos]
      rfl
    · rw [State.rleContent_colorHi (s := s) d hmode hpos, State.rleContent_colorHi (s := s.within x) d hmode hpos]
      rfl

@[simp] theorem State.within_finishPayload (s : State) (x : Surroundings) :
    (s.within x).finishPayload = s.finishPayload.within x := by
  rw [State.finishPayload, State.finishPayload, apply_ite (State.within · x)]
  rfl

theorem State.within_popped (s : State) (x : Surroundings) : (s.within x).popped = s.popped.within x := by
  have hcount : s.fifoCount + x.more - 1#16 = s.fifoCount - 1#16 + x.more := by bv_omega
  simp only [State.popped, State.within, hcount]

end Sys2Proof.Machine

namespace Sys2Proof.Safety

open Sys2Proof.Machine

/-! ### The Engine's step in other surroundings -/

/-- The Engine sees no difference between a state and the state in other surroundings. -/
structure Unseen (s : State) (x : Surroundings) : Prop where
  head : (s.within x).fifoHead? = s.fifoHead?
  empty : (s.within x).fifoCount = 0#16 ↔ s.fifoCount = 0#16

theorem Unseen.withPop {s t : State} {x : Surroundings} {f : State → State} (hx : Unseen s x)
    (h : withPop s (fun _ u => .next (f u)) = .next t) (hf : ∀ u, f (u.within x) = (f u).within x) :
    withPop (s.within x) (fun _ u => .next (f u)) = .next (t.within x) := by
  obtain ⟨e, hhead, heq⟩ := withPop_next.1 h
  cases heq
  rw [withPop_some (hx.head.trans hhead), State.within_popped, hf]

theorem Unseen.exec {s t : State} {x : Surroundings} {i : Instr} (hx : Unseen s x) (h : exec i s = .next t) :
    exec i (s.within x) = .next (t.within x) := by
  unfold Machine.exec at h ⊢
  cases i with
  | nop clear => exact hx.withPop h fun u => by simp
  | fill clear color => exact hx.withPop h fun u => by simp
  | rect clear l t r b color => exact hx.withPop h fun u => by simp
  | copyArea clear sx sy dx dy w h' => exact hx.withPop h fun u => by simp
  | bitblt clear px py w h' => exact hx.withPop h fun u => by simp
  | bitbltRle clear px py w h' => exact hx.withPop h fun u => by simp
  | unknownOpcode06 clear op => exact hx.withPop h fun u => by simp
  | unknownOpcode08 clear op => exact hx.withPop h fun u => by simp
  | unknownOpcode10 clear op => exact hx.withPop h fun u => by simp
  | unknownOpcode20 clear op => exact hx.withPop h fun u => by simp
  | nonFrame d => exact hx.withPop h fun u => by simp
  | contBitblt start clear => exact hx.withPop h fun u => rfl
  | contBitbltRle start clear => exact hx.withPop h fun u => rfl
  | rleLiteral ignored size => exact hx.withPop h fun u => by simp
  | rleCommon ignored size => exact hx.withPop h fun u => by simp
  | status => cases h; rfl

/-- The fetch reads what the Engine sees (R140). -/
theorem Unseen.fetch {s : State} {x : Surroundings} (hx : Unseen s x) : fetch (s.within x) = fetch s := by
  cases hb : s.bootPending with
  | true => rw [fetch_boot hb, fetch_boot (s := s.within x) hb]
  | false =>
    by_cases hcount : s.fifoCount = 0#16
    · rw [fetch_wait hb hcount, fetch_wait (s := s.within x) hb (hx.empty.2 hcount)]
    · cases hhead : s.fifoHead? with
      | none =>
        rw [fetch_noEntry hb hcount hhead,
          fetch_noEntry (s := s.within x) hb (fun h => hcount (hx.empty.1 h)) (hx.head.trans hhead)]
      | some e =>
        rw [fetch_head hb hhead, fetch_head (s := s.within x) hb (hx.head.trans hhead)]
        rfl

/-- What the Engine does not see has no part in its step. -/
theorem Unseen.engineStep {s t : State} {x : Surroundings} (hx : Unseen s x) (h : engineStep s = .next t) :
    engineStep (s.within x) = .next (t.within x) := by
  unfold Machine.engineStep at h ⊢
  rw [hx.fetch]
  cases hfetch : Machine.fetch s <;> rw [hfetch] at h
  case boot => cases h; rfl
  case wait => cases h; rfl
  case stop f => cases h
  case run i => exact hx.exec h
  case accept hd => exact hx.withPop (show acceptStep s hd = _ from h) fun u => rfl
  case argument d => exact hx.withPop (show argumentStep s d = _ from h) fun u => rfl
  case drop => exact hx.withPop h fun u => rfl
  case resync => cases h; rfl
  case desync d => cases h; rfl
  case raw d => exact hx.withPop h fun u => by simp
  case content d => exact hx.withPop h fun u => by simp

/-- The boot step reads DIRTY alone (R283). -/
theorem engineStep_within_of_boot {s t : State} (x : Surroundings) (hb : s.bootPending = true)
    (h : engineStep s = .next t) : engineStep (s.within x) = .next (t.within x) := by
  rw [engineStep, fetch_boot hb] at h
  rw [engineStep, fetch_boot (s := s.within x) hb]
  cases h
  rfl

theorem unseen_scheduling (s : State) (r : List Move) : Unseen s (s.scheduling r) := by
  refine ⟨?_, ?_⟩
  · rw [State.within_scheduling]
    rfl
  · rw [State.within_scheduling]

/-- An entry put behind one that is already there is not seen. -/
theorem unseen_appending {s : State} (e : FifoEntry) (hne : s.fifoCount ≠ 0#16) (hroom : s.fifoCount.toNat < 32768)
    (hindices : s.fifoWr = s.fifoRd + s.fifoCount.setWidth 15) : Unseen s (s.appending e) := by
  have hne' : (s.appended e).fifoCount ≠ 0#16 := by
    show s.fifoCount + 1#16 ≠ 0#16
    bv_omega
  have hslot : s.fifoRd.toNat ≠ s.fifoWr.toNat := by
    rw [hindices]
    bv_omega
  refine ⟨?_, iff_of_false hne' hne⟩
  rw [State.within_appending, State.fifoHead?, State.fifoHead?, if_neg hne, if_neg hne']
  exact Memory.read_write_other _ e hslot

/-- A state is in its own surroundings, so an Engine step keeps them. -/
theorem engineStep_next_surroundings {s t : State} (h : engineStep s = .next t) :
    t.fifoMem = s.fifoMem ∧ t.fifoWr = s.fifoWr ∧ t.sched = s.sched := by
  have hself := (unseen_scheduling s s.sched).engineStep h
  rw [State.within_scheduling] at hself
  have ht : t = t.within (s.scheduling s.sched) := Host.Outcome.next.inj (h.symm.trans hself)
  rw [ht]
  exact ⟨rfl, rfl, rfl⟩

/-- Settles O32: the moves to come are no part of what the Engine sees. -/
theorem scheduledEngineMoveIsTheEngineStep : Obligations.ScheduledEngineMoveIsTheEngineStep := by
  intro s t r hstep
  have hengine : engineStep { s with sched := [] } = .next t := (step_nil rfl).symm.trans hstep
  obtain ⟨hmem, hwr, -⟩ := engineStep_next_surroundings hengine
  have hsurroundings : State.scheduling { s with sched := [] } r = t.scheduling r := by
    rw [State.scheduling, State.scheduling, hmem, hwr]
  have hother := (unseen_scheduling { s with sched := [] } r).engineStep hengine
  rw [State.within_scheduling, hsurroundings, State.within_scheduling] at hother
  exact (step_engine rfl).trans hother

theorem engineStep_next_count_le {s t : State} (h : engineStep s = .next t) :
    t.fifoCount.toNat ≤ s.fifoCount.toNat := by
  rcases (engineStep_next_effect h).ring with hring | ⟨hne, hring⟩ <;>
    obtain ⟨-, -, -, hcount⟩ := State.ring_eq_iff.1 hring
  · rw [hcount]
  · rw [hcount, State.popped_count_toNat hne]
    omega

/-- Settles O35: the entry stored is put where the Engine does not see it, or the Engine takes the boot step. -/
theorem storeCommutesWithEngineStep : Obligations.StoreCommutesWithEngineStep := by
  intro s t d p hsched hready hroom hindices hstep
  rw [step_nil hsched] at hstep
  obtain ⟨hmem, hwr, hsched'⟩ := engineStep_next_surroundings hstep
  have hother : engineStep (s.within (s.appending ⟨d, p⟩)) = .next (t.within (s.appending ⟨d, p⟩)) := by
    rcases hready with hboot | hne
    · exact engineStep_within_of_boot _ hboot hstep
    · exact (unseen_appending _ hne hroom hindices).engineStep hstep
  have hsurroundings : s.appending ⟨d, p⟩ = t.appending ⟨d, p⟩ := by
    rw [State.appending, State.appending, hmem, hwr, hsched']
  rw [State.within_appending, hsurroundings, State.within_appending] at hother
  exact ⟨s.appended ⟨d, p⟩, t.appended ⟨d, p⟩, fifoStore_of_room hroom,
    fifoStore_of_room ((engineStep_next_count_le hstep).trans_lt hroom), (step_nil (s := s.appended _) hsched).trans hother⟩

end Sys2Proof.Safety

namespace Sys2Proof.Machine

/-! ## Where an instruction and a step stop (R75, R76, R300) -/

/-- Every instruction but STATUS pops the head entry and updates the state (R240); the update always answers. -/
theorem exec_eq_withPop {i : Instr} (h : i ≠ .status) :
    ∃ f : State → State, ∀ s, exec i s = withPop s fun _ u => .next (f u) := by
  unfold exec
  cases i with
  | status => exact absurd rfl h
  | _ => exact ⟨_, fun _ => rfl⟩

theorem exec_next_of_head {i : Instr} {s : State} {e : FifoEntry} (hi : i ≠ .status) (h : s.fifoHead? = some e) :
    ∃ t, exec i s = .next t := by
  obtain ⟨f, hf⟩ := exec_eq_withPop hi
  exact ⟨_, (hf s).trans (withPop_some h)⟩

theorem exec_fault_of_no_head {i : Instr} {s : State} (hi : i ≠ .status) (h : s.fifoHead? = none) :
    exec i s = .fault .noEntry := by
  obtain ⟨f, hf⟩ := exec_eq_withPop hi
  rw [hf, withPop_none h]

theorem withPop_ne_refused (s : State) (f : State → State) (r : Refusal) :
    withPop s (fun _ u => .next (f u)) ≠ .refused r := by
  cases hhead : s.fifoHead? with
  | none => rw [withPop_none hhead]; exact nofun
  | some e => rw [withPop_some hhead]; exact nofun

theorem exec_ne_refused (i : Instr) (s : State) (r : Refusal) : exec i s ≠ .refused r := by
  by_cases hi : i = .status
  · subst hi
    exact nofun
  · obtain ⟨f, hf⟩ := exec_eq_withPop hi
    rw [hf]
    exact withPop_ne_refused s f r

theorem engineStep_ne_refused (s : State) (r : Refusal) : engineStep s ≠ .refused r := by
  unfold engineStep
  cases fetch s with
  | boot => exact nofun
  | wait => exact nofun
  | stop f => exact nofun
  | run i => exact exec_ne_refused i s r
  | accept h => exact withPop_ne_refused s (fun u => { u.startFrame h with fsm := .header }) r
  | argument d => exact withPop_ne_refused s (·.pushArg d) r
  | drop => exact withPop_ne_refused s id r
  | resync => exact nofun
  | desync d => exact nofun
  | raw d => exact withPop_ne_refused s (fun u => (u.rawByte d).finishPayload) r
  | content d => exact withPop_ne_refused s (fun u => (u.rleContent d).finishPayload) r

theorem fifoStore_ne_refused (s : State) (d : Byte) (sop : Bool) (r : Refusal) : fifoStore s d sop ≠ .refused r := by
  unfold fifoStore
  split
  · exact nofun
  · split <;> exact nofun

theorem step_ne_refused (s : State) (r : Refusal) : step s ≠ .refused r := by
  cases hsched : s.sched with
  | nil => exact step_nil hsched ▸ engineStep_ne_refused s r
  | cons m rest =>
    cases m with
    | engine => exact step_engine hsched ▸ engineStep_ne_refused _ r
    | store d sop => exact step_store hsched ▸ fifoStore_ne_refused _ d sop r
    | reset => exact step_reset hsched ▸ nofun

end Sys2Proof.Machine

namespace Sys2Proof.Safety

open Sys2Proof.Machine

/-- Settles O44: an instruction is a pop and an update that always answers, and STATUS is an update alone. -/
theorem instructionsStopOnlyWithoutAnEntry : Obligations.InstructionsStopOnlyWithoutAnEntry := by
  refine ⟨fun i s => ⟨fun ⟨t, ht⟩ => ?_, fun h => ?_⟩, fun i s => exec_fault_of_no_head, step_ne_refused⟩
  · by_contra hstop
    obtain ⟨hi, hhead⟩ := not_or.1 hstop
    rw [exec_fault_of_no_head hi (Option.not_isSome_iff_eq_none.1 hhead)] at ht
    cases ht
  · by_cases hi : i = .status
    · subst hi
      exact ⟨_, rfl⟩
    · obtain ⟨e, hhead⟩ := Option.isSome_iff_exists.1 (h.resolve_left hi)
      exact exec_next_of_head hi hhead

/-! ## What a step sends (R85, R285, R288, R308)

Between a pop and a completion a handler issues transactions of port sink only (`Draws`), unless the step is an error's,
which sends its one event, or a COPY_AREA's that does not fit, which sends DIAG_COPY_OOM and completes. -/

/-- An update that sends nothing but transactions of port sink. -/
def Draws (s t : State) : Prop := ∃ ts, t.out = s.out ++ ts ∧ ∀ u ∈ ts, u.isSink = true

/-- What one step may send. -/
inductive Report : List Transaction → Prop where
  | sink {ts : List Transaction} (h : ∀ u ∈ ts, u.isSink = true) : Report ts
  | status {ts : List Transaction} (p : StatusPacket) (h : ∀ u ∈ ts, u.isSink = true) : Report (ts ++ [.statusOut p])
  | event {c : Byte} (info : List Byte) (h : c ≠ 0x05#8) : Report [.diag c info]
  | copyOom (info : List Byte) (p : StatusPacket) : Report [.diag 0x05#8 info, .statusOut p]

/-- A step that appends a report to what has been sent. -/
def Reports (s t : State) : Prop := ∃ ts, t.out = s.out ++ ts ∧ Report ts

theorem Draws.of_out_eq {s t : State} (h : t.out = s.out) : Draws s t :=
  ⟨[], by rw [h, List.append_nil], nofun⟩

theorem Draws.of_emit {s t : State} {u : Transaction} (hout : t.out = s.out ++ [u]) (hu : u.isSink = true) :
    Draws s t :=
  ⟨[u], hout, List.forall_mem_singleton.2 hu⟩

theorem Draws.reports {s t : State} (h : Draws s t) : Reports s t :=
  have ⟨ts, hout, hsink⟩ := h
  ⟨ts, hout, .sink hsink⟩

/-- A completion sends the status packet last (R285). -/
theorem Draws.complete {s t : State} (h : Draws s t) : Reports s t.complete := by
  obtain ⟨ts, hout, hsink⟩ := h
  exact ⟨_, by rw [State.complete_eq, hout, List.append_assoc], .status _ hsink⟩

theorem reports_takeError {s : State} {code : Byte} (info : List Byte) (target : Fsm) (h : code ≠ 0x05#8) :
    Reports s (s.takeError code info target) :=
  ⟨_, rfl, .event info h⟩

/-- The frame registers are no output. -/
@[simp] theorem latchFrame_out (s : State) (frame : List Byte) : (s.latchFrame frame).out = s.out := by
  cases frame <;> rfl

theorem Reports.of_latchFrame {s t : State} {frame : List Byte} (h : Reports (s.latchFrame frame) t) : Reports s t := by
  rwa [Reports, latchFrame_out] at h

theorem reports_nopWith (s : State) (reports : Bool) : Reports s (nopWith reports s) := by
  cases reports
  · exact (Draws.of_out_eq rfl).reports
  · exact (Draws.of_out_eq rfl).complete

theorem draws_fillRect (s : State) (l t r b : Coord) (c : Pixel) : Draws s (s.fillRect l t r b c) := by
  rw [State.fillRect_eq]
  split
  · exact .of_emit rfl rfl
  · exact .of_out_eq rfl

/-- COPY_AREA copies on port sink, or sends DIAG_COPY_OOM; then it completes (R245 to R247, R308). -/
theorem reports_copyArea (s : State) (cap : Nat) (answer : Nat → List Pixel) (sx sy dx dy w h : Coord)
    (hanswer : ∀ n, (answer n).length = n) : Reports s (s.copyAreaWith cap answer sx sy dx dy w h).complete := by
  rcases s.copyAreaWith_cases cap answer sx sy dx dy w h with ⟨-, heq⟩ | ⟨-, -, heq⟩ | ⟨-, -, heq⟩ <;> rw [heq]
  · exact (Draws.of_out_eq rfl).complete
  · exact ⟨_, List.append_assoc .., .copyOom ..⟩
  · rw [State.copyRect_eq s sx sy dx dy w h (hanswer _)]
    refine Draws.complete ⟨_, rfl, fun u hu => ?_⟩
    simp only [List.mem_append, List.mem_cons, List.not_mem_nil, or_false, List.mem_map] at hu
    obtain (rfl | rfl) | ⟨p, -, rfl⟩ := hu <;> rfl

theorem reports_bitBltStart (s : State) (x y w h : Coord) : Reports s (s.bitBltStart x y w h) := by
  rcases s.bitBltStart_cases x y w h with ⟨-, heq⟩ | ⟨-, heq⟩ <;> rw [heq]
  · exact Draws.complete (.of_out_eq rfl)
  · exact Draws.reports (.of_emit rfl rfl)

theorem draws_rawByte (s : State) (d : Byte) : Draws s (s.rawByte d) := by
  show Draws s { s.pixelByte d with remaining := _ }
  rw [State.pixelByte_eq]
  split
  · exact .of_emit rfl rfl
  · exact .of_out_eq rfl

/-- A content byte is half a literal pixel, or one of the two colour bytes of a common block (R188 to R190). -/
theorem draws_rleContent (s : State) (d : Byte) : Draws s (s.rleContent d) := by
  cases hmode : s.blkCommon
  case false =>
    rw [State.rleContent_literal d hmode]
    exact draws_rawByte { s with blkPos := s.blkPos + 1#5 } d
  case true =>
    by_cases hpos : s.blkPos + 1#5 = s.blkRem - 1#5
    · rw [State.rleContent_colorLo d hmode hpos]
      exact .of_out_eq rfl
    · rw [State.rleContent_colorHi d hmode hpos]
      exact ⟨_, rfl, fun u hu => List.eq_of_mem_replicate hu ▸ rfl⟩

theorem Draws.finishPayload {s t : State} (h : Draws s t) : Reports s t.finishPayload := by
  rcases t.finishPayload_cases with ⟨-, heq⟩ | ⟨-, heq⟩ <;> rw [heq]
  · exact h.complete
  · exact h.reports

/-- A pop sends nothing. -/
theorem reports_of_withPop {s t : State} {f : State → State} (h : withPop s (fun _ u => .next (f u)) = .next t)
    (hf : ∀ u, Reports u (f u)) : Reports s t := by
  obtain ⟨e, -, heq⟩ := withPop_next.1 h
  cases heq
  exact hf s.popped

theorem exec_next_reports {i : Instr} {s t : State} (h : exec i s = .next t) : Reports s t := by
  unfold exec at h
  cases i with
  | nop clear => exact reports_of_withPop h fun u => .of_latchFrame (reports_nopWith ..)
  | fill clear color => exact reports_of_withPop h fun u => .of_latchFrame (Draws.of_emit rfl rfl).complete
  | rect clear l t r b color => exact reports_of_withPop h fun u => .of_latchFrame (draws_fillRect ..).complete
  | copyArea clear sx sy dx dy w h' =>
    exact reports_of_withPop h fun u => .of_latchFrame (reports_copyArea _ _ _ sx sy dx dy w h' u.sinkAnswer_length)
  | bitblt clear x y w h' => exact reports_of_withPop h fun u => .of_latchFrame (reports_bitBltStart ..)
  | bitbltRle clear x y w h' => exact reports_of_withPop h fun u => .of_latchFrame (reports_bitBltStart ..)
  | unknownOpcode06 clear op =>
    exact reports_of_withPop h fun u => .of_latchFrame (reports_takeError _ _ (by decide))
  | unknownOpcode08 clear op =>
    exact reports_of_withPop h fun u => .of_latchFrame (reports_takeError _ _ (by decide))
  | unknownOpcode10 clear op =>
    exact reports_of_withPop h fun u => .of_latchFrame (reports_takeError _ _ (by decide))
  | unknownOpcode20 clear op =>
    exact reports_of_withPop h fun u => .of_latchFrame (reports_takeError _ _ (by decide))
  | nonFrame d => exact reports_of_withPop h fun u => reports_takeError _ _ (by decide)
  | contBitblt start clear => exact reports_of_withPop h fun u => (Draws.of_out_eq rfl).reports
  | contBitbltRle start clear => exact reports_of_withPop h fun u => (Draws.of_out_eq rfl).reports
  | rleLiteral ignored size => exact reports_of_withPop h fun u => (Draws.of_out_eq rfl).reports
  | rleCommon ignored size => exact reports_of_withPop h fun u => (Draws.of_out_eq rfl).reports
  | status => cases h; exact ⟨_, rfl, .status (ts := []) _ nofun⟩

theorem engineStep_next_reports {s t : State} (h : engineStep s = .next t) : Reports s t := by
  unfold engineStep at h
  cases hfetch : fetch s <;> rw [hfetch] at h
  case boot => cases h; exact ⟨_, rfl, .status (ts := []) _ nofun⟩
  case wait => cases h; exact (Draws.of_out_eq rfl).reports
  case stop f => cases h
  case run i => exact exec_next_reports h
  case accept hd =>
    exact reports_of_withPop (show acceptStep s hd = _ from h) fun u => (Draws.of_out_eq rfl).reports
  case argument d =>
    exact reports_of_withPop (show argumentStep s d = _ from h) fun u => (Draws.of_out_eq rfl).reports
  case drop => exact reports_of_withPop h fun u => (Draws.of_out_eq rfl).reports
  case resync => cases h; exact (Draws.of_out_eq rfl).reports
  case desync d => cases h; exact ⟨_, rfl, .event _ (by decide)⟩
  case raw d => exact reports_of_withPop h fun u => (draws_rawByte u d).finishPayload
  case content d => exact reports_of_withPop h fun u => (draws_rleContent u d).finishPayload

theorem step_next_reports {s t : State} (h : step s = .next t) : Reports s t := by
  rcases step_next_cases h with ⟨r, -, hengine⟩ | ⟨d, sop, r, -, hstore⟩ | ⟨r, -, rfl⟩
  · have hreports := engineStep_next_reports hengine
    exact hreports
  · rcases fifoStore_next hstore with ⟨-, rfl⟩ | ⟨-, lost, -, rfl⟩
    · exact (Draws.of_out_eq rfl).reports
    · exact ⟨_, rfl, .event _ (by decide)⟩
  · exact (Draws.of_out_eq rfl).reports

/-! ### What a report is -/

theorem isDiag_of_isSink {u : Transaction} (h : u.isSink = true) : u.isDiag = false := by
  cases u with
  | diag c info => cases h
  | _ => rfl

theorem isStatus_of_isSink {u : Transaction} (h : u.isSink = true) : u.isStatus = false := by
  cases u with
  | statusOut p => cases h
  | _ => rfl

theorem filter_isDiag_of_isSink {ts : List Transaction} (h : ∀ u ∈ ts, u.isSink = true) :
    ts.filter Transaction.isDiag = [] :=
  List.filter_eq_nil_iff.2 fun u hu => by rw [isDiag_of_isSink (h u hu)]; decide

theorem Report.diag_le_one {ts : List Transaction} (h : Report ts) : (ts.filter Transaction.isDiag).length ≤ 1 := by
  cases h with
  | sink hsink => simp [filter_isDiag_of_isSink hsink]
  | status p hsink => simp [filter_isDiag_of_isSink hsink, Transaction.isDiag]
  | event info hc => exact le_rfl
  | copyOom info p => exact le_rfl

/-- A status packet in a report is its last transaction and the only one of its kind (R285). -/
theorem Report.status_last {ts us vs : List Transaction} {p : StatusPacket} (h : Report ts)
    (hts : ts = us ++ .statusOut p :: vs) : vs = [] ∧ ∀ u ∈ us, u.isStatus = false := by
  have hmem : .statusOut p ∈ ts := hts ▸ List.mem_append_right us List.mem_cons_self
  cases h with
  | sink hsink => cases hsink _ hmem
  | status q hsink =>
    rcases List.eq_nil_or_concat vs with rfl | ⟨vs', v, rfl⟩
    · obtain ⟨rfl, -⟩ := List.append_inj' hts rfl
      exact ⟨rfl, fun u hu => isStatus_of_isSink (hsink u hu)⟩
    · rw [List.concat_eq_append, ← List.cons_append, ← List.append_assoc] at hts
      obtain ⟨rfl, -⟩ := List.append_inj' hts rfl
      cases hsink (.statusOut p) (List.mem_append_right us List.mem_cons_self)
  | event info hc => simp at hmem
  | copyOom info q =>
    cases us with
    | nil => cases hts
    | cons u us =>
      obtain ⟨rfl, hrest⟩ := List.cons.inj hts
      rcases List.singleton_eq_append_iff.1 hrest with ⟨rfl, hlast⟩ | ⟨-, hlast⟩
      · exact ⟨(List.cons.inj hlast).2, List.forall_mem_singleton.2 rfl⟩
      · cases hlast

/-- An event other than DIAG_COPY_OOM is a report of its own (R308). -/
theorem Report.event_alone {ts : List Transaction} {c : Byte} {info : List Byte} (h : Report ts)
    (hmem : .diag c info ∈ ts) (hc : c ≠ 0x05#8) : ts = [.diag c info] := by
  cases h with
  | sink hsink => cases hsink _ hmem
  | status p hsink =>
    rcases List.mem_append.1 hmem with hmem | hmem
    · cases hsink _ hmem
    · cases List.mem_singleton.1 hmem
  | event info' hc' => rw [List.mem_singleton.1 hmem]
  | copyOom info' p => simp [hc] at hmem

/-- DIAG_COPY_OOM is followed by the status packet of its completion (R247, R308). -/
theorem Report.copyOom_then_status {ts : List Transaction} {info : List Byte} (h : Report ts)
    (hmem : .diag 0x05#8 info ∈ ts) : ∃ p, ts = [.diag 0x05#8 info, .statusOut p] := by
  cases h with
  | sink hsink => cases hsink _ hmem
  | status p hsink =>
    rcases List.mem_append.1 hmem with hmem | hmem
    · cases hsink _ hmem
    · cases List.mem_singleton.1 hmem
  | event info' hc => simp [Ne.symm hc] at hmem
  | copyOom info' p => exact ⟨p, by simpa [eq_comm] using hmem⟩

/-- Settles O42: by the four reports a step can make. -/
theorem oneStepReportsAtMostOnce : Obligations.OneStepReportsAtMostOnce := by
  intro s t hstep
  obtain ⟨ts, hout, hreport⟩ := step_next_reports hstep
  exact ⟨ts, hout, hreport.diag_le_one, fun us p vs => hreport.status_last, fun c info => hreport.event_alone,
    fun info => hreport.copyOom_then_status⟩

end Sys2Proof.Safety

/-! # Encoding (30_encoding.md): the decoder and the encoder undo each other, the opcode map, RLE block headers

Proofs of the statements on R100 to R127 and R186. -/

namespace Sys2Proof

open Sys2Proof.Safety

/-! ## The 16-bit fields of a fixed header (R70, R110) -/

/-- 16-bit fields as they follow each other on the wire. -/
def wireBytes (vs : List (BitVec 16)) : List Byte := vs.flatMap fieldBytes

/-- Behind the first field, the fields are those of the bytes behind its two bytes. -/
theorem argAt_cons_succ (b0 b1 : Byte) (as : List Byte) (k : Nat) : argAt (b0 :: b1 :: as) (k + 1) = argAt as k := rfl

/-- Each field is read back from its place, whatever follows the fields (R110). -/
theorem argAt_wireBytes {vs : List (BitVec 16)} {k : Nat} {v : BitVec 16} (rest : List Byte) (h : vs[k]? = some v) :
    argAt (wireBytes vs ++ rest) k = v := by
  induction vs generalizing k with
  | nil => cases h
  | cons u us ih =>
    cases k with
    | zero =>
      cases h
      exact le16_fieldBytes v
    | succ k => exact (argAt_cons_succ ..).trans (ih h)

theorem fieldBytes_argAt (as : List Byte) (k : Nat) :
    fieldBytes (argAt as k) = [as.getD (2 * k) 0, as.getD (2 * k + 1) 0] := by
  rw [fieldBytes, argAt, loByte_le16, hiByte_le16]

/-- The first `n` fields of argument bytes are written back as their first `2 * n` bytes (R110). -/
theorem wireBytes_argAt {as : List Byte} {n : Nat} (h : 2 * n ≤ as.length) :
    wireBytes ((List.range n).map (argAt as)) = as.take (2 * n) := by
  induction n with
  | zero => rfl
  | succ n ih =>
    have hlo : 2 * n < as.length := by omega
    have hhi : 2 * n + 1 < as.length := by omega
    have hlast : wireBytes [argAt as n] = [as[2 * n], as[2 * n + 1]] := by
      simp [wireBytes, fieldBytes_argAt, hlo, hhi]
    calc wireBytes ((List.range (n + 1)).map (argAt as))
        = wireBytes ((List.range n).map (argAt as)) ++ wireBytes [argAt as n] := by
          simp [wireBytes, List.range_succ]
      _ = as.take (2 * n) ++ [as[2 * n]] ++ [as[2 * n + 1]] := by
          rw [ih hlo.le, hlast, List.append_assoc, List.singleton_append]
      _ = as.take (2 * (n + 1)) := by
          rw [List.take_append_getElem, List.take_append_getElem, Nat.mul_succ]

/-! ## The six commands under a setting with six different opcodes (R103, R104) -/

/-- How many argument bytes each command awaits (R104). -/
theorem need_opcodes {p : Config.Params} (hvalid : p.valid = true) :
    need p p.opcNop = 0 ∧ need p p.opcFill = 2 ∧ need p p.opcRect = 10 ∧ need p p.opcCopyArea = 12 ∧
      need p p.opcBitblt = 8 ∧ need p p.opcBitbltRle = 8 := by
  have hdistinct := Config.Params.valid_iff.1 hvalid
  simp only [Config.Params.opcodes, Config.Params.withArguments] at hdistinct
  grind [need]

/-- Which command each opcode is (R103, R105 to R109). -/
theorem frameOf_opcodes {p : Config.Params} (hvalid : p.valid = true) :
    (∀ c as, frameOf p c p.opcNop as = .nop c) ∧
    (∀ c as, frameOf p c p.opcFill as = .fill c (argAt as 0)) ∧
    (∀ c as, frameOf p c p.opcRect as =
      .rect c (argAt as 0) (argAt as 1) (argAt as 2) (argAt as 3) (argAt as 4)) ∧
    (∀ c as, frameOf p c p.opcCopyArea as =
      .copyArea c (argAt as 0) (argAt as 1) (argAt as 2) (argAt as 3) (argAt as 4) (argAt as 5)) ∧
    (∀ c as, frameOf p c p.opcBitblt as = .bitblt c (argAt as 0) (argAt as 1) (argAt as 2) (argAt as 3)) ∧
    (∀ c as, frameOf p c p.opcBitbltRle as =
      .bitbltRle c (argAt as 0) (argAt as 1) (argAt as 2) (argAt as 3)) := by
  have hdistinct := Config.Params.valid_iff.1 hvalid
  simp only [Config.Params.opcodes, Config.Params.withArguments] at hdistinct
  grind [frameOf]

/-- A header byte followed by as many argument bytes as its opcode awaits is read as one command (R104, R121). -/
theorem decode_frame {p : Config.Params} (c : Bool) {op : BitVec 6} {as : List Byte} (rest : List Byte)
    (hlen : need p op = as.length) :
    decode p .scan (mkHeader true c op :: (as ++ rest)) = .ok (frameOf p c op (as ++ rest), rest) := by
  rw [decode_scan_whole (frameStart_mkHeader ..) (by simp [hlen]), clearDirty_mkHeader, opcodeOf_mkHeader, hlen,
    List.drop_left]

/-- A command frame read from enough argument bytes is written back as its header byte and the bytes it awaited. -/
theorem encode_frameOf {p : Config.Params} {op : BitVec 6} (c : Bool) {as : List Byte}
    (hlen : need p op ≤ as.length) : encode p (frameOf p c op as) = mkHeader true c op :: as.take (need p op) := by
  unfold frameOf need
  unfold need at hlen
  split_ifs at hlen ⊢ with hnop hfill hrect hcopy hblt hrle
  · rw [hnop]; rfl
  · rw [hfill, ← wireBytes_argAt (n := 1) hlen]; rfl
  · rw [hrect, ← wireBytes_argAt (n := 5) hlen]; rfl
  · rw [hcopy, ← wireBytes_argAt (n := 6) hlen]; rfl
  · rw [hblt, ← wireBytes_argAt (n := 4) hlen]; rfl
  · rw [hrle, ← wireBytes_argAt (n := 4) hlen]; rfl
  · unfold unknownRow
    split_ifs <;> rfl

/-! ## The four rows of unknown opcodes (R127, R150) -/

theorem unknownRow_06 (c : Bool) {op : BitVec 6} (h : op &&& 0x38#6 = 0x00#6) :
    unknownRow c op = .unknownOpcode06 c op := by
  revert c op; decide

theorem unknownRow_08 (c : Bool) {op : BitVec 6} (h : op &&& 0x38#6 = 0x08#6) :
    unknownRow c op = .unknownOpcode08 c op := by
  revert c op; decide

theorem unknownRow_10 (c : Bool) {op : BitVec 6} (h : op &&& 0x30#6 = 0x10#6) :
    unknownRow c op = .unknownOpcode10 c op := by
  revert c op; decide

theorem unknownRow_20 (c : Bool) {op : BitVec 6} (h : op &&& 0x20#6 = 0x20#6) :
    unknownRow c op = .unknownOpcode20 c op := by
  revert c op; decide

/-- The ranges of the four rows cover the opcode field (R127). -/
theorem opcode_ranges (op : BitVec 6) :
    op &&& 0x38#6 = 0x00#6 ∨ op &&& 0x38#6 = 0x08#6 ∨ op &&& 0x30#6 = 0x10#6 ∨ op &&& 0x20#6 = 0x20#6 := by
  revert op; decide

/-- An opcode that is none of the six is put in the row of its range (R127). -/
theorem unknownRow_wellFormed {p : Config.Params} {op : BitVec 6} (c : Bool) (h : op ∉ p.opcodes) :
    (unknownRow c op).wellFormed p = true := by
  rcases opcode_ranges op with hrow | hrow | hrow | hrow
  · simp [unknownRow_06 c hrow, Instr.wellFormed, hrow, h]
  · simp [unknownRow_08 c hrow, Instr.wellFormed, hrow, h]
  · simp [unknownRow_10 c hrow, Instr.wellFormed, hrow, h]
  · simp [unknownRow_20 c hrow, Instr.wellFormed, hrow, h]

/-- A header byte with an unknown opcode is a whole instruction (R104, R150). -/
theorem decode_unknown {p : Config.Params} {op : BitVec 6} (c : Bool) (rest : List Byte) (h : op ∉ p.opcodes) :
    decode p .scan (mkHeader true c op :: rest) = .ok (unknownRow c op, rest) := by
  rw [← frameOf_unknown c rest h]
  exact decode_frame (as := []) c rest (need_unknown h)

theorem frameOf_wellFormed (p : Config.Params) (c : Bool) (op : BitVec 6) (as : List Byte) :
    (frameOf p c op as).wellFormed p = true := by
  unfold frameOf
  split_ifs with hnop hfill hrect hcopy hblt hrle
  on_goal 7 =>
    refine unknownRow_wellFormed c ?_
    simp [Config.Params.opcodes, Config.Params.withArguments, hnop, hfill, hrect, hcopy, hblt, hrle]
  all_goals rfl

/-! ## Continuation bytes and RLE block headers (R113, R116) -/

/-- A byte continues a BitBlt when the opcode fields agree and its FRAME_START is one the setting allows (R113). -/
theorem contMatches_iff {m : Config.ContMatch} {d h : Byte} : contMatches m d h = true ↔
    opcodeOf d = opcodeOf h ∧ (m == .opcodeField || !frameStart d) = true := by
  cases m
  · simp [contMatches]
  · simp [contMatches, show (Config.ContMatch.opcodeFieldNoStart == .opcodeField) = false from rfl]

/-- An RLE block header byte is its mode, its ignored bits and its size (R116). -/
theorem encode_decodeRle (p : Config.Params) (h : Byte) : encode p (decodeRle h) = [h] := by
  have hfields : mkRleHeader (h.getLsbD 7) ((h >>> 3).setWidth 4) (h.setWidth 3) = h := by
    revert h; decide
  rw [decodeRle_eq]
  cases hmode : h.getLsbD 7 <;> rw [hmode] at hfields <;> exact congrArg ([·]) hfields

/-! ## The decoder undoes the encoder -/

/-- A non-frame byte is one without FRAME_START (R123, R127). -/
theorem nonFrame_wellFormed_iff {p : Config.Params} {d : Byte} :
    (Instr.nonFrame d).wellFormed p = true ↔ frameStart d = false :=
  iff_of_eq (Bool.not_eq_true' _)

/-- A frame or a refused header byte is read back in the header position (R103 to R110, R127). -/
theorem decode_encode_scan {p : Config.Params} {i : Instr} (rest : List Byte) (hvalid : p.valid = true)
    (hwf : i.wellFormed p = true) (hread : i.readIn p .scan = true) :
    decode p .scan (encode p i ++ rest) = .ok (i, rest) := by
  obtain ⟨needNop, needFill, needRect, needCopy, needBlt, needRle⟩ := need_opcodes hvalid
  obtain ⟨frameNop, frameFill, frameRect, frameCopy, frameBlt, frameRle⟩ := frameOf_opcodes hvalid
  cases i with
  | nop c =>
    refine (decode_frame (as := []) c rest needNop).trans ?_
    rw [frameNop]
  | fill c color =>
    refine (decode_frame (as := wireBytes [color]) c rest needFill).trans ?_
    simp [frameFill, argAt_wireBytes]
  | rect c l t r b color =>
    refine (decode_frame (as := wireBytes [l, t, r, b, color]) c rest needRect).trans ?_
    simp [frameRect, argAt_wireBytes]
  | copyArea c sx sy dx dy w h =>
    refine (decode_frame (as := wireBytes [sx, sy, dx, dy, w, h]) c rest needCopy).trans ?_
    simp [frameCopy, argAt_wireBytes]
  | bitblt c x y w h =>
    refine (decode_frame (as := wireBytes [x, y, w, h]) c rest needBlt).trans ?_
    simp [frameBlt, argAt_wireBytes]
  | bitbltRle c x y w h =>
    refine (decode_frame (as := wireBytes [x, y, w, h]) c rest needRle).trans ?_
    simp [frameRle, argAt_wireBytes]
  | unknownOpcode06 c op =>
    obtain ⟨hrow, hop⟩ : op &&& 0x38#6 = 0x00#6 ∧ op ∉ p.opcodes := by simpa [Instr.wellFormed] using hwf
    exact (decode_unknown c rest hop).trans (by rw [unknownRow_06 c hrow])
  | unknownOpcode08 c op =>
    obtain ⟨hrow, hop⟩ : op &&& 0x38#6 = 0x08#6 ∧ op ∉ p.opcodes := by simpa [Instr.wellFormed] using hwf
    exact (decode_unknown c rest hop).trans (by rw [unknownRow_08 c hrow])
  | unknownOpcode10 c op =>
    obtain ⟨hrow, hop⟩ : op &&& 0x30#6 = 0x10#6 ∧ op ∉ p.opcodes := by simpa [Instr.wellFormed] using hwf
    exact (decode_unknown c rest hop).trans (by rw [unknownRow_10 c hrow])
  | unknownOpcode20 c op =>
    obtain ⟨hrow, hop⟩ : op &&& 0x20#6 = 0x20#6 ∧ op ∉ p.opcodes := by simpa [Instr.wellFormed] using hwf
    exact (decode_unknown c rest hop).trans (by rw [unknownRow_20 c hrow])
  | nonFrame d => exact decode_scan_nonFrame (nonFrame_wellFormed_iff.1 hwf)
  | contBitblt | contBitbltRle | rleLiteral | rleCommon | status => cases hread

/-- A continuation byte is read back where its BitBlt is in PAYLOAD (R113, R127). -/
theorem decode_encode_payloadStart {p : Config.Params} {i : Instr} {hdr : Byte} (rest : List Byte)
    (hvalid : p.valid = true) (hwf : i.wellFormed p = true) (hread : i.readIn p (.payloadStart hdr) = true) :
    decode p (.payloadStart hdr) (encode p i ++ rest) = .ok (i, rest) := by
  cases i with
  | contBitblt start clear =>
    have hmatch : contMatches p.contMatch (mkHeader start clear p.opcBitblt) hdr = true :=
      contMatches_iff.2 ⟨(opcodeOf_mkHeader ..).trans (eq_of_beq hread).symm, by rwa [frameStart_mkHeader]⟩
    simp [encode, decode, decodeCont, hmatch]
  | contBitbltRle start clear =>
    have hmatch : contMatches p.contMatch (mkHeader start clear p.opcBitbltRle) hdr = true :=
      contMatches_iff.2 ⟨(opcodeOf_mkHeader ..).trans (eq_of_beq hread).symm, by rwa [frameStart_mkHeader]⟩
    simp [encode, decode, decodeCont, hmatch, (opcBitblt_ne_opcBitbltRle hvalid).symm]
  | _ => cases hread

/-- An RLE block header byte is read back at a block boundary (R116). -/
theorem decode_encode_rleBoundary {p : Config.Params} {i : Instr} (rest : List Byte)
    (hread : i.readIn p .rleBoundary = true) : decode p .rleBoundary (encode p i ++ rest) = .ok (i, rest) := by
  cases i with
  | rleLiteral ignored size => simp [encode, decode]
  | rleCommon ignored size => simp [encode, decode]
  | _ => cases hread

/-- Only a status packet is read on the host's side of the status endpoint (R120). -/
theorem eq_status_of_readIn_statusIn {p : Config.Params} {i : Instr} (h : i.readIn p .statusIn = true) :
    i = .status := by
  cases i with
  | status => rfl
  | _ => cases h

theorem decode_encode {p : Config.Params} {i : Instr} {c : Ctx} (rest : List Byte) (hvalid : p.valid = true)
    (hwf : i.wellFormed p = true) (hread : i.readIn p c = true) :
    decode p c (encode p i ++ rest) = .ok (i, rest) := by
  cases c with
  | scan => exact decode_encode_scan rest hvalid hwf hread
  | payloadStart hdr => exact decode_encode_payloadStart rest hvalid hwf hread
  | rleBoundary => exact decode_encode_rleBoundary rest hread
  | statusIn =>
    cases eq_status_of_readIn_statusIn hread
    rfl

/-- The defaults of R7 give six different opcodes, so an encoding under them is read back. -/
theorem decode_defaults_of_encode {i : Instr} {c : Ctx} {bs : List Byte} (hbytes : encode .defaults i = bs)
    (hwf : i.wellFormed .defaults = true) (hread : i.readIn .defaults c = true) :
    decode .defaults c bs = .ok (i, []) := by
  have hdecode := decode_encode [] (show Config.Params.defaults.valid = true by decide) hwf hread
  rwa [List.append_nil, hbytes] at hdecode

/-- Settles O1, context by context. -/
theorem decodeUndoesEncode : Obligations.DecodeUndoesEncode := by
  intro p i c rest hvalid hwf hread
  exact decode_encode rest hvalid hwf hread

/-! ## The encoder undoes the decoder -/

/-- The bytes read in the header position are those of a well-formed instruction of that position and those behind it
(R104, R121, R127). -/
theorem encode_decode_scan {p : Config.Params} {bs rest : List Byte} {i : Instr}
    (h : decode p .scan bs = .ok (i, rest)) : encode p i ++ rest = bs ∧ i.wellFormed p = true := by
  cases bs with
  | nil => cases h
  | cons b bs =>
    cases hstart : frameStart b with
    | false =>
      rw [decode_scan_nonFrame hstart] at h
      cases h
      exact ⟨rfl, nonFrame_wellFormed_iff.2 hstart⟩
    | true =>
      rcases Nat.lt_or_ge bs.length (need p (opcodeOf b)) with hshort | hwhole
      · rw [decode_scan_short hstart hshort] at h
        cases h
      · rw [decode_scan_whole hstart hwhole] at h
        cases h
        refine ⟨?_, frameOf_wellFormed ..⟩
        rw [encode_frameOf _ hwhole, ← hstart, mkHeader_fields, List.cons_append, List.take_append_drop]

/-- The byte read at a packet start is that of a continuation byte of the BitBlt in PAYLOAD (R113, R127). -/
theorem encode_decodeCont {p : Config.Params} {hdr d : Byte} {i : Instr} (h : decodeCont p hdr d = some i) :
    encode p i = [d] ∧ i.wellFormed p = true ∧ i.readIn p (.payloadStart hdr) = true := by
  obtain ⟨hmatch, hrow⟩ := decodeCont_some h
  obtain ⟨hop, hstart⟩ := contMatches_iff.1 hmatch
  rcases hrow with ⟨hopcode, rfl⟩ | ⟨hopcode, rfl⟩
  · exact ⟨congrArg ([·]) (hopcode ▸ mkHeader_fields d), hstart, beq_iff_eq.2 (hop.symm.trans hopcode)⟩
  · exact ⟨congrArg ([·]) (hopcode ▸ mkHeader_fields d), hstart, beq_iff_eq.2 (hop.symm.trans hopcode)⟩

theorem decodeRle_wellFormed (p : Config.Params) (h : Byte) : (decodeRle h).wellFormed p = true := by
  rw [decodeRle_eq]
  split <;> rfl

theorem decodeRle_readIn (p : Config.Params) (h : Byte) : (decodeRle h).readIn p .rleBoundary = true := by
  rw [decodeRle_eq]
  split <;> rfl

/-- Settles O2, context by context. -/
theorem encodeUndoesDecode : Obligations.EncodeUndoesDecode := by
  intro p c bs rest i hctx hdecode
  cases c with
  | scan =>
    obtain ⟨hbytes, hwf⟩ := encode_decode_scan hdecode
    exact ⟨hbytes, hwf, decode_scan_readIn hdecode⟩
  | payloadStart hdr =>
    cases bs with
    | nil => cases hdecode
    | cons d ds =>
      cases hcont : decodeCont p hdr d with
      | none => simp [decode, hcont] at hdecode
      | some j =>
        obtain ⟨rfl, rfl⟩ : j = i ∧ ds = rest := by simpa [decode, hcont] using hdecode
        obtain ⟨hbyte, hwf, hread⟩ := encode_decodeCont hcont
        exact ⟨by rw [hbyte]; rfl, hwf, hread⟩
  | rleBoundary =>
    cases bs with
    | nil => cases hdecode
    | cons d ds =>
      cases hdecode
      exact ⟨by rw [encode_decodeRle]; rfl, decodeRle_wellFormed .., decodeRle_readIn ..⟩
  | statusIn => exact absurd rfl hctx

/-! ## The opcode map by mask and match (R127) -/

/-- A byte that agrees on some mask with a header byte is one. -/
theorem frameStart_of_match {b m v : Byte} (h : b &&& m = v) (hv : frameStart v = true) : frameStart b = true := by
  rw [← h, frameStart, BitVec.getLsbD_and, Bool.and_eq_true] at hv
  exact hv.1

/-- A match decides the opcode field on the mask's part of it. -/
theorem opcodeOf_of_match {b m v : Byte} (h : b &&& m = v) : opcodeOf b &&& opcodeOf m = opcodeOf v := by
  rw [← h, opcodeOf, opcodeOf, opcodeOf, BitVec.setWidth_and]

theorem eq_mkHeader_of_frameStart {b : Byte} (h : frameStart b = true) :
    b = mkHeader true (b.getLsbD 6) (opcodeOf b) := by
  rw [← h]
  exact (mkHeader_fields b).symm

/-- The mask of all bits but CLEAR_DIRTY leaves that bit alone free (R127). -/
theorem eq_mkHeader_of_match {b v : Byte} (h : b &&& 0xBF#8 = v) (hv : frameStart v = true) :
    b = mkHeader true (b.getLsbD 6) (opcodeOf v) := by
  have hop : opcodeOf b = opcodeOf v := BitVec.and_allOnes.symm.trans (opcodeOf_of_match h)
  rw [← hop]
  exact eq_mkHeader_of_frameStart (frameStart_of_match h hv)

/-- Under the defaults a byte that matches a command's row begins that command's encoding. -/
theorem decode_command_of_match {b v : Byte} {as : List Byte} {i : Instr} (h : b &&& 0xBF#8 = v)
    (hv : frameStart v = true) (hbytes : encode .defaults i = mkHeader true (b.getLsbD 6) (opcodeOf v) :: as)
    (hwf : i.wellFormed .defaults = true) (hread : i.readIn .defaults .scan = true) :
    decode .defaults .scan (b :: as) = .ok (i, []) := by
  rw [← eq_mkHeader_of_match h hv] at hbytes
  exact decode_defaults_of_encode hbytes hwf hread

/-- Under the defaults the four unknown rows hold none of the six opcodes. -/
theorem not_mem_defaults_opcodes {op : BitVec 6} (h : op &&& 0x3E#6 = 0x06#6 ∨ op &&& 0x38#6 = 0x08#6 ∨
    op &&& 0x30#6 = 0x10#6 ∨ op &&& 0x20#6 = 0x20#6) : op ∉ Config.Params.defaults.opcodes := by
  revert op; decide

/-- Opcodes 6 and 7 lie in the range of the first unknown row. -/
theorem range_06_of_match {op : BitVec 6} (h : op &&& 0x3E#6 = 0x06#6) : op &&& 0x38#6 = 0x00#6 := by
  revert op; decide

/-- A byte that matches an unknown row is a whole instruction, of the row of its opcode field. -/
theorem decode_unknown_of_match {p : Config.Params} {b m v : Byte} {i : Instr} (h : b &&& m = v)
    (hv : frameStart v = true) (hop : opcodeOf b ∉ p.opcodes) (hrow : unknownRow (b.getLsbD 6) (opcodeOf b) = i) :
    decode p .scan [b] = .ok (i, []) := by
  have hdecode := decode_unknown (b.getLsbD 6) [] hop
  rwa [← eq_mkHeader_of_frameStart (frameStart_of_match h hv), hrow] at hdecode

/-- The opcode field is what the mask of bits 5:0 leaves (R100, R127). -/
theorem opcodeOf_eq_iff {b h : Byte} : opcodeOf b = opcodeOf h ↔ b &&& 0x3F#8 = h &&& 0x3F#8 := by
  have hmask (d : Byte) : d &&& 0x3F#8 = mkHeader false false (opcodeOf d) := by
    revert d; decide
  rw [hmask, hmask]
  exact ⟨congrArg _, fun heq => by simpa using congrArg opcodeOf heq⟩

theorem bit7_clear_iff (b : Byte) : b &&& 0x80#8 = 0x00#8 ↔ b.getLsbD 7 = false := by
  revert b; decide

theorem bit7_set_iff (b : Byte) : b &&& 0x80#8 = 0x80#8 ↔ b.getLsbD 7 = true := by
  revert b; decide

/-- Settles O3: a command's match leaves CLEAR_DIRTY alone free, so the bytes are its encoding; an unknown row's match
leaves the opcode in that row. -/
theorem bytesDecodeByMaskAndMatch : Obligations.BytesDecodeByMaskAndMatch := by
  intro b h
  refine ⟨fun hb => ?nonFrame, fun hb => ?nop, fun hb => ?fill, fun hb => ?rect, fun hb => ?copyArea,
    fun hb => ?bitblt, fun hb => ?bitbltRle, fun hb => ?unknown06, fun hb => ?unknown08, fun hb => ?unknown10,
    fun hb => ?unknown20, ?continuation, fun hb => ?literal, fun hb => ?common⟩
  case nonFrame => exact decode_scan_nonFrame ((bit7_clear_iff b).1 hb)
  case nop => exact decode_command_of_match hb rfl rfl rfl rfl
  case fill => exact decode_command_of_match hb rfl rfl rfl rfl
  case rect => exact decode_command_of_match hb rfl rfl rfl rfl
  case copyArea => exact decode_command_of_match hb rfl rfl rfl rfl
  case bitblt => exact decode_command_of_match hb rfl rfl rfl rfl
  case bitbltRle => exact decode_command_of_match hb rfl rfl rfl rfl
  case unknown06 =>
    have hop := opcodeOf_of_match hb
    exact decode_unknown_of_match hb rfl (not_mem_defaults_opcodes (.inl hop)) (unknownRow_06 _ (range_06_of_match hop))
  case unknown08 =>
    have hop := opcodeOf_of_match hb
    exact decode_unknown_of_match hb rfl (not_mem_defaults_opcodes (.inr (.inl hop))) (unknownRow_08 _ hop)
  case unknown10 =>
    have hop := opcodeOf_of_match hb
    exact decode_unknown_of_match hb rfl (not_mem_defaults_opcodes (.inr (.inr (.inl hop)))) (unknownRow_10 _ hop)
  case unknown20 =>
    have hop := opcodeOf_of_match hb
    exact decode_unknown_of_match hb rfl (not_mem_defaults_opcodes (.inr (.inr (.inr hop)))) (unknownRow_20 _ hop)
  case continuation => exact beq_iff_eq.trans opcodeOf_eq_iff
  case literal =>
    have hmode := (bit7_clear_iff b).1 hb
    rw [decode, decodeRle_eq, hmode]
    rfl
  case common =>
    have hmode := (bit7_set_iff b).1 hb
    rw [decode, decodeRle_eq, hmode]
    rfl

/-! ## Lengths and examples (R104 to R109, R113, R116) -/

/-- Settles O4: each row's length, and what each of six different opcodes awaits. -/
theorem fixedHeaderLengths : Obligations.FixedHeaderLengths := fun p =>
  ⟨fun c => Laws.FrameLength.nop c p,
    fun c color => Laws.FrameLength.fill c color p,
    fun c l t r b color => Laws.FrameLength.rect c l t r b color p,
    fun c sx sy dx dy w h => Laws.FrameLength.copyArea c sx sy dx dy w h p,
    fun c x y w h => Laws.FrameLength.bitblt c x y w h p,
    fun c x y w h => Laws.FrameLength.bitbltRle c x y w h p,
    need_opcodes⟩

/-- Settles O5: the byte strings that decode under the defaults are encodings; the others are read as they stand. -/
theorem specExamplesDecode : Obligations.SpecExamplesDecode := by
  refine ⟨?nop, ?fill, ?rect, ?copyArea, ?bitbltRle, ?continued, ?otherOpcode, ?startRefused, ?noStartContinued,
    ?common, ?literal⟩
  case nop => exact decode_defaults_of_encode rfl rfl rfl
  case fill => exact decode_defaults_of_encode rfl rfl rfl
  case rect => exact decode_defaults_of_encode rfl rfl rfl
  case copyArea => exact decode_defaults_of_encode rfl rfl rfl
  case bitbltRle => exact decode_defaults_of_encode rfl rfl rfl
  case continued => exact decode_defaults_of_encode rfl rfl rfl
  case otherOpcode => decide
  case startRefused => decide
  case noStartContinued => decide
  case common => exact decode_defaults_of_encode rfl rfl rfl
  case literal => exact decode_defaults_of_encode rfl rfl rfl

end Sys2Proof

namespace Sys2Proof.Safety

open Sys2Proof.Machine

/-! ## RLE block headers (R186) -/

/-- The length and the position of a block, as numbers: a size selector of 7 is 16 bytes, and nothing wraps. -/
theorem rleHeader_eq (s : State) (common : Bool) (size : BitVec 3) : s.rleHeader common size = { s with
    blkRem := BitVec.ofNat 5 (2 * (size.toNat + 1))
    blkCommon := common
    blkPos := if common then BitVec.ofNat 5 (2 * size.toNat) else 0#5 } := by
  have hlen : (size.setWidth 5 + 1#5) * 2#5 = BitVec.ofNat 5 (2 * (size.toNat + 1)) := by
    revert size; decide
  have hpos : (size.setWidth 5 + 1#5) * 2#5 - 2#5 = BitVec.ofNat 5 (2 * size.toNat) := by
    revert size; decide
  rw [State.rleHeader, hpos, hlen]

theorem exec_rleLiteral {s : State} {e : FifoEntry} (ignored : BitVec 4) (size : BitVec 3)
    (hhead : s.fifoHead? = some e) : exec (.rleLiteral ignored size) s = .next (s.popped.rleHeader false size) :=
  show execRleLiteral ignored size s = _ from withPop_some hhead

theorem exec_rleCommon {s : State} {e : FifoEntry} (ignored : BitVec 4) (size : BitVec 3)
    (hhead : s.fifoHead? = some e) : exec (.rleCommon ignored size) s = .next (s.popped.rleHeader true size) :=
  show execRleCommon ignored size s = _ from withPop_some hhead

/-- What is fetched at a block boundary of a BITBLT_RLE (R180, R185). -/
theorem fetchPayload_boundary {s : State} (d : Byte) (hrle : opcodeOf s.hdr ≠ s.params.opcBitblt)
    (hrem : s.remaining ≠ 0#33) (hend : s.blkRem ≤ s.blkPos) : fetchPayload s d = .run (decodeRle d) := by
  rw [fetchPayload, if_neg hrem, if_neg hrle, if_pos hend]

/-- A step of a BITBLT_RLE at a block boundary opens the block of its byte (R186, R198). -/
theorem step_rleHeader {s : State} {e : FifoEntry} (hready : Ready s e) (hfsm : s.fsm = .payload)
    (hsop : e.sop = false) (hrle : opcodeOf s.hdr ≠ s.params.opcBitblt) (hrem : s.remaining ≠ 0#33)
    (hend : s.blkRem ≤ s.blkPos) :
    step s = .next (s.popped.rleHeader (e.data.getLsbD 7) (e.data.setWidth 3)) := by
  have hfetch : fetch s = .run (decodeRle e.data) := by
    rw [fetch_head hready.booted hready.head, hfsm, hsop]
    exact fetchPayload_boundary e.data hrle hrem hend
  rw [step_nil hready.sched, engineStep_run hfetch, exec_decodeRle e.data hready.head]

/-- Settles O18: both rows and the step open the block by `State.rleHeader`, whose fields are read off the byte. -/
theorem rleHeaderOpensItsBlock : Obligations.RleHeaderOpensItsBlock := by
  refine ⟨fun ig sz s e hhead => ⟨?_, ?_⟩, fun s e hready hfsm hsop hrle hrem hend => ?_⟩
  · rw [exec_rleLiteral ig sz hhead, rleHeader_eq]
    rfl
  · rw [exec_rleCommon ig sz hhead, rleHeader_eq]
    rfl
  · have hmode : e.data.getLsbD 7 = decide (128 ≤ e.data.toNat) := BitVec.msb_eq_decide e.data
    rw [step_rleHeader hready hfsm hsop hrle hrem hend, rleHeader_eq, hmode, BitVec.toNat_setWidth]
    simp only [decide_eq_true_eq]
    rfl

end Sys2Proof.Safety

/-! # The framer (40_framer.md): what a step in each of its states does, its transitions, and progress

Proofs of the statements on R101, R110, R140 to R161, R283, R304 and R310. -/

namespace Sys2Proof

/-! ## Which opcodes take no argument bytes (R104) -/

/-- NOP and the unknown opcodes are whole with their header byte. -/
theorem need_eq_zero_iff {p : Config.Params} {op : BitVec 6} : need p op = 0 ↔ op = p.opcNop ∨ op ∉ p.opcodes := by
  constructor
  · intro hneed
    unfold need at hneed
    split_ifs at hneed with hnop hfill hrect hcopy hblt hrle
    · exact .inl hnop
    · exact .inr (by simp [Config.Params.opcodes, Config.Params.withArguments, *])
  · rintro (rfl | hunknown)
    · simp [need]
    · exact need_unknown hunknown

/-- Under six different opcodes, those that take arguments are neither NOP's nor unknown (R104, log 20). -/
theorem need_pos_of_withArguments {p : Config.Params} {op : BitVec 6} (hvalid : p.valid = true)
    (hop : op ∈ p.withArguments) : 0 < need p op := by
  obtain ⟨hnop, -⟩ := List.nodup_cons.1 (Config.Params.valid_iff.1 hvalid)
  refine Nat.pos_of_ne_zero fun hzero => ?_
  rcases need_eq_zero_iff.1 hzero with rfl | hunknown
  · exact hnop hop
  · exact hunknown (List.mem_cons_of_mem _ hop)

theorem frameOf_opcNop (p : Config.Params) (c : Bool) (as : List Byte) : frameOf p c p.opcNop as = .nop c := if_pos rfl

end Sys2Proof

namespace Sys2Proof.Machine

open Sys2Proof.Safety

/-! ## What the framer fetches (R143, R147, R155, R156) -/

theorem fetchScan_of_decode {s : State} {d : Byte} {i : Instr} {rest : List Byte}
    (h : decode s.params .scan [d] = .ok (i, rest)) : fetchScan s d = .run i := by
  rw [fetchScan, h]

theorem fetchHeader_of_decode {s : State} {d : Byte} {i : Instr}
    (h : decode s.params .scan (s.frameBytes d) = .ok (i, [])) : fetchHeader s d = .run i := by
  rw [fetchHeader, h]

theorem fetchScan_nonFrame {s : State} {d : Byte} (h : frameStart d = false) : fetchScan s d = .run (.nonFrame d) :=
  fetchScan_of_decode (decode_scan_nonFrame h)

theorem fetchScan_unknown {s : State} {d : Byte} (h : frameStart d = true) (hop : opcodeOf d ∉ s.params.opcodes) :
    fetchScan s d = .run (unknownRow (clearDirty d) (opcodeOf d)) := by
  rw [← frameOf_unknown (clearDirty d) [] hop]
  exact fetchScan_of_decode (decode_scan_whole h (need_unknown hop).le)

theorem fetchScan_nop {s : State} {d : Byte} (h : frameStart d = true) (hop : opcodeOf d = s.params.opcNop) :
    fetchScan s d = .run (.nop (clearDirty d)) := by
  rw [← frameOf_opcNop s.params (clearDirty d) [], ← hop]
  exact fetchScan_of_decode (decode_scan_whole h (need_eq_zero_iff.2 (.inl hop)).le)

theorem fetchScan_accept {s : State} {d : Byte} (h : frameStart d = true) (hneed : 0 < need s.params (opcodeOf d)) :
    fetchScan s d = .accept d := by
  rw [fetchScan, decode_scan_short (as := []) h hneed]

/-- How many bytes of a frame have arrived with the one at the head (R147). -/
theorem receivedArgs_length {s : State} (d : Byte) (hcnt : s.argcnt.toNat ≤ 12) :
    (s.args.toList.take s.argcnt.toNat ++ [d]).length = s.argcnt.toNat + 1 := by
  simp [hcnt]

theorem fetchHeader_argument {s : State} (d : Byte) (h : frameStart s.hdr = true)
    (hmore : s.argcnt.toNat + 1 < need s.params (opcodeOf s.hdr)) : fetchHeader s d = .argument d := by
  have hcnt : s.argcnt.toNat ≤ 12 := by have := need_le_twelve s.params (opcodeOf s.hdr); omega
  rw [fetchHeader, State.frameBytes, decode_scan_short h ((receivedArgs_length d hcnt).trans_lt hmore)]

/-- With the last argument byte the bytes received are a whole command (R147, R152). -/
theorem decode_frameBytes {s : State} (d : Byte) (h : frameStart s.hdr = true)
    (hlast : s.argcnt.toNat + 1 = need s.params (opcodeOf s.hdr)) :
    ∃ i, decode s.params .scan (s.frameBytes d) = .ok (i, []) := by
  have hcnt : s.argcnt.toNat ≤ 12 := by have := need_le_twelve s.params (opcodeOf s.hdr); omega
  have hlen := (receivedArgs_length d hcnt).trans hlast
  rw [State.frameBytes, decode_scan_whole h hlen.ge, List.drop_of_length_le hlen.le]
  exact ⟨_, rfl⟩

/-- The model's comparison at a packet start is the one R113 and R155 give. -/
theorem contMatches_iff_continues {p : Config.Params} {d h : Byte} :
    contMatches p.contMatch d h = true ↔ Continues p d h := by
  simp [contMatches_iff, Continues, opcodeOf, frameStart]

/-- A packet start that continues the BitBlt is a continuation byte of its row (R155). -/
theorem fetchContinuation_continues {s : State} {d : Byte} (hcont : Continues s.params d s.hdr)
    (hop : opcodeOf s.hdr = s.params.opcBitblt ∨ opcodeOf s.hdr = s.params.opcBitbltRle) :
    (∃ start clear, fetchContinuation s d = .run (.contBitblt start clear)) ∨
    (∃ start clear, fetchContinuation s d = .run (.contBitbltRle start clear)) := by
  obtain ⟨hfield, -⟩ := contMatches_iff.1 (contMatches_iff_continues.2 hcont)
  rw [← hfield] at hop
  unfold fetchContinuation decodeCont
  rw [if_pos (contMatches_iff_continues.2 hcont)]
  by_cases hblt : opcodeOf d = s.params.opcBitblt
  · rw [if_pos hblt]
    exact .inl ⟨_, _, rfl⟩
  · rw [if_neg hblt, if_pos (hop.resolve_left hblt)]
    exact .inr ⟨_, _, rfl⟩

theorem fetchContinuation_desync {s : State} {d : Byte} (h : ¬ Continues s.params d s.hdr) :
    fetchContinuation s d = .desync d := by
  unfold fetchContinuation decodeCont
  rw [if_neg (mt contMatches_iff_continues.1 h)]

/-! ## The instructions of the framer alone (R144, R150, R151, R155) -/

/-- A frame without argument bytes leaves the argument registers (R24, R143). -/
@[simp] theorem loadArgs_nil (v : Vector Byte 12) : loadArgs v [] = v := by
  ext i hi
  simp [loadArgs]

theorem exec_nop {s : State} {e : FifoEntry} (clear : Bool) (hhead : s.fifoHead? = some e) :
    exec (.nop clear) s =
      .next (nopWith s.params.nopReports (s.popped.latchFrame [mkHeader true clear s.params.opcNop])) :=
  show execNop clear s = _ from withPop_some hhead

theorem exec_nonFrame {s : State} {e : FifoEntry} (d : Byte) (hhead : s.fifoHead? = some e) :
    exec (.nonFrame d) s = .next (s.popped.takeError Config.diagFraming [d] .discard) :=
  show execNonFrame d s = _ from withPop_some hhead

theorem exec_contBitblt {s : State} {e : FifoEntry} (start clear : Bool) (hhead : s.fifoHead? = some e) :
    exec (.contBitblt start clear) s = .next s.popped :=
  show execContBitblt start clear s = _ from withPop_some hhead

theorem exec_contBitbltRle {s : State} {e : FifoEntry} (start clear : Bool) (hhead : s.fifoHead? = some e) :
    exec (.contBitbltRle start clear) s = .next s.popped :=
  show execContBitbltRle start clear s = _ from withPop_some hhead

/-- What each of the four unknown rows leaves (R150). -/
def State.refused (s : State) (h : Byte) : State := (s.popped.latchFrame [h]).unknownOpcode h

theorem exec_unknownOpcode06 {s : State} {e : FifoEntry} (clear : Bool) (op : BitVec 6)
    (hhead : s.fifoHead? = some e) :
    exec (.unknownOpcode06 clear op) s = .next (s.refused (mkHeader true clear op)) :=
  show execUnknownOpcode06 clear op s = _ from withPop_some hhead

theorem exec_unknownOpcode08 {s : State} {e : FifoEntry} (clear : Bool) (op : BitVec 6)
    (hhead : s.fifoHead? = some e) :
    exec (.unknownOpcode08 clear op) s = .next (s.refused (mkHeader true clear op)) :=
  show execUnknownOpcode08 clear op s = _ from withPop_some hhead

theorem exec_unknownOpcode10 {s : State} {e : FifoEntry} (clear : Bool) (op : BitVec 6)
    (hhead : s.fifoHead? = some e) :
    exec (.unknownOpcode10 clear op) s = .next (s.refused (mkHeader true clear op)) :=
  show execUnknownOpcode10 clear op s = _ from withPop_some hhead

theorem exec_unknownOpcode20 {s : State} {e : FifoEntry} (clear : Bool) (op : BitVec 6)
    (hhead : s.fifoHead? = some e) :
    exec (.unknownOpcode20 clear op) s = .next (s.refused (mkHeader true clear op)) :=
  show execUnknownOpcode20 clear op s = _ from withPop_some hhead

/-- An unknown opcode is refused alike in whichever row it lies (R127, R150). -/
theorem exec_unknownRow {s : State} {e : FifoEntry} (clear : Bool) (op : BitVec 6) (hhead : s.fifoHead? = some e) :
    exec (unknownRow clear op) s = .next (s.refused (mkHeader true clear op)) := by
  unfold unknownRow
  split_ifs
  · exact exec_unknownOpcode20 clear op hhead
  · exact exec_unknownOpcode10 clear op hhead
  · exact exec_unknownOpcode08 clear op hhead
  · exact exec_unknownOpcode06 clear op hhead

theorem State.refused_eq (s : State) (h : Byte) : s.refused h = { received s h s.args 0#4 with
    out := s.out ++ [.diag 0x02#8 [h]], fsm := .discard } := by
  show { s.refused h with args := loadArgs s.args [] } = _
  rw [loadArgs_nil]
  rfl

end Sys2Proof.Machine

namespace Sys2Proof.Safety

open Sys2Proof.Machine

/-! ## A step on the head entry, by what is fetched (R140) -/

section

variable {s : State} {e : FifoEntry}

theorem Ready.fetch_scan (hready : Ready s e) (hfsm : s.fsm = .scan) : fetch s = fetchScan s e.data := by
  rw [fetch_head hready.booted hready.head, hfsm]

theorem Ready.fetch_header (hready : Ready s e) (hfsm : s.fsm = .header) : fetch s = fetchHeader s e.data := by
  rw [fetch_head hready.booted hready.head, hfsm]

theorem Ready.fetch_discard (hready : Ready s e) (hfsm : s.fsm = .discard) :
    fetch s = if e.sop then .resync else .drop := by
  rw [fetch_head hready.booted hready.head, hfsm]

theorem Ready.fetch_packetStart (hready : Ready s e) (hfsm : s.fsm = .payload) (hsop : e.sop = true) :
    fetch s = fetchContinuation s e.data := by
  rw [fetch_head hready.booted hready.head, hfsm, hsop]
  rfl

theorem Ready.fetch_payload (hready : Ready s e) (hfsm : s.fsm = .payload) (hsop : e.sop = false) :
    fetch s = fetchPayload s e.data := by
  rw [fetch_head hready.booted hready.head, hfsm, hsop]
  rfl

theorem Ready.step_run {i : Instr} (hready : Ready s e) (h : fetch s = .run i) : step s = exec i s :=
  (step_nil hready.sched).trans (engineStep_run h)

theorem Ready.step_accept {d : Byte} (hready : Ready s e) (h : fetch s = .accept d) :
    step s = .next { s.popped.startFrame d with fsm := .header } := by
  rw [step_nil hready.sched, engineStep, h]
  exact withPop_some hready.head

theorem Ready.step_argument {d : Byte} (hready : Ready s e) (h : fetch s = .argument d) :
    step s = .next (s.popped.pushArg d) := by
  rw [step_nil hready.sched, engineStep, h]
  exact withPop_some hready.head

theorem Ready.step_drop (hready : Ready s e) (h : fetch s = .drop) : step s = .next s.popped := by
  rw [step_nil hready.sched, engineStep, h]
  exact withPop_some hready.head

theorem Ready.step_resync (hready : Ready s e) (h : fetch s = .resync) : step s = .next { s with fsm := .scan } := by
  rw [step_nil hready.sched, engineStep, h]
  rfl

theorem Ready.step_desync {d : Byte} (hready : Ready s e) (h : fetch s = .desync d) :
    step s = .next (s.syncError d) := by
  rw [step_nil hready.sched, engineStep, h]
  rfl

theorem Ready.step_raw {d : Byte} (hready : Ready s e) (h : fetch s = .raw d) :
    step s = .next (s.popped.rawByte d).finishPayload := by
  rw [step_nil hready.sched, engineStep, h]
  exact withPop_some hready.head

theorem Ready.step_content {d : Byte} (hready : Ready s e) (h : fetch s = .content d) :
    step s = .next (s.popped.rleContent d).finishPayload := by
  rw [step_nil hready.sched, engineStep, h]
  exact withPop_some hready.head

theorem Ready.step_stop {f : Fault} (hready : Ready s e) (h : fetch s = .stop f) : step s = .fault f := by
  rw [step_nil hready.sched, engineStep, h]

end

/-! ## SCAN (R143, R144, R150) -/

/-- A step in SCAN on a byte without FRAME_START (R144). -/
theorem Ready.step_nonFrame {s : State} {e : FifoEntry} (hready : Ready s e) (hfsm : s.fsm = .scan)
    (hstart : frameStart e.data = false) :
    step s = .next (s.popped.takeError Config.diagFraming [e.data] .discard) := by
  rw [hready.step_run ((hready.fetch_scan hfsm).trans (fetchScan_nonFrame hstart)), exec_nonFrame _ hready.head]

/-- A step in SCAN on an unknown opcode (R150). -/
theorem Ready.step_unknown {s : State} {e : FifoEntry} (hready : Ready s e) (hfsm : s.fsm = .scan)
    (hstart : frameStart e.data = true) (hop : opcodeOf e.data ∉ s.params.opcodes) :
    step s = .next (s.refused e.data) := by
  rw [hready.step_run ((hready.fetch_scan hfsm).trans (fetchScan_unknown hstart hop)),
    exec_unknownRow _ _ hready.head, ← hstart, mkHeader_fields]

/-- A step in SCAN on a NOP (R151). -/
theorem Ready.step_nop {s : State} {e : FifoEntry} (hready : Ready s e) (hfsm : s.fsm = .scan)
    (hstart : frameStart e.data = true) (hop : opcodeOf e.data = s.params.opcNop) :
    step s = .next (nopWith s.params.nopReports (s.popped.latchFrame [e.data])) := by
  rw [hready.step_run ((hready.fetch_scan hfsm).trans (fetchScan_nop hstart hop)), exec_nop _ hready.head, ← hop,
    ← hstart, mkHeader_fields]

theorem headerByte_eq_mkHeader (op : BitVec 6) (clear : Bool) : headerByte op clear = mkHeader true clear op := by
  revert op clear; decide

/-- Settles O14: the four rows refuse alike, and the step runs the row of the opcode. -/
theorem unknownOpcodesAreRecordedAndDiscarded : Obligations.UnknownOpcodesAreRecordedAndDiscarded := by
  refine ⟨fun clear op s e hhead => ?_, fun s e hready hfsm hstart hop => ?_⟩
  · have hrefused := State.refused_eq s (headerByte op clear)
    have hrow {i : Instr} (h : exec i s = .next (s.refused (mkHeader true clear op))) :
        exec i s = .next (s.refused (headerByte op clear)) := by rw [h, headerByte_eq_mkHeader]
    rw [hrefused] at hrow
    exact ⟨hrow (exec_unknownOpcode06 clear op hhead), hrow (exec_unknownOpcode08 clear op hhead),
      hrow (exec_unknownOpcode10 clear op hhead), hrow (exec_unknownOpcode20 clear op hhead)⟩
  · rw [← State.refused_eq]
    exact hready.step_unknown hfsm hstart hop

/-- Settles O15: the row takes a framing error, and the step in SCAN runs it. -/
theorem nonFrameByteIsRecordedAndDiscarded : Obligations.NonFrameByteIsRecordedAndDiscarded :=
  ⟨fun d _ _ hhead => exec_nonFrame d hhead, fun _ _ hready hfsm hstart => hready.step_nonFrame hfsm hstart⟩

/-- Settles O22: the header byte alone is not the whole command, so SCAN accepts it. -/
theorem headerByteWithArgumentsIsAccepted : Obligations.HeaderByteWithArgumentsIsAccepted := by
  intro s e hready hvalid hfsm hstart hop
  have hneed : 0 < need s.params (opcodeOf e.data) := need_pos_of_withArguments hvalid hop
  exact hready.step_accept ((hready.fetch_scan hfsm).trans (fetchScan_accept hstart hneed))

/-! ## HEADER (R147, R148, R152) -/

/-- Settles O23: the bytes received are not yet the whole command. -/
theorem argumentByteIsAppended : Obligations.ArgumentByteIsAppended := by
  intro s e hready hfsm hstart hmore
  exact hready.step_argument ((hready.fetch_header hfsm).trans (fetchHeader_argument e.data hstart hmore))

/-- Settles O24: the bytes received decode to one whole command, and encoding it gives them back. -/
theorem lastArgumentByteDispatches : Obligations.LastArgumentByteDispatches := by
  intro s e hready hfsm hstart hlast
  obtain ⟨i, hdecode⟩ := decode_frameBytes e.data hstart hlast
  obtain ⟨hbytes, -⟩ := encode_decode_scan hdecode
  rw [List.append_nil] at hbytes
  exact ⟨i, hbytes, decode_scan_readIn hdecode,
    hready.step_run ((hready.fetch_header hfsm).trans (fetchHeader_of_decode hdecode))⟩

/-! ## DISCARD (R145, R146) -/

/-- Settles O25: the packet tag alone decides. -/
theorem discardDropsUpToThePacketStart : Obligations.DiscardDropsUpToThePacketStart := by
  intro s e hready hfsm
  have hfetch := hready.fetch_discard hfsm
  refine ⟨fun hsop => ?_, fun hsop => ?_⟩
  · rw [hsop] at hfetch
    exact hready.step_drop hfetch
  · rw [hsop] at hfetch
    exact hready.step_resync hfetch

/-! ## Packet starts in PAYLOAD (R155, R156) -/

/-- A step in PAYLOAD on a packet start that continues the BitBlt (R155). -/
theorem Ready.step_continues {s : State} {e : FifoEntry} (hready : Ready s e) (hfsm : s.fsm = .payload)
    (hsop : e.sop = true) (hop : opcodeOf s.hdr = s.params.opcBitblt ∨ opcodeOf s.hdr = s.params.opcBitbltRle)
    (hcont : Continues s.params e.data s.hdr) : step s = .next s.popped := by
  have hfetch := hready.fetch_packetStart hfsm hsop
  rcases fetchContinuation_continues hcont hop with ⟨start, clear, hrun⟩ | ⟨start, clear, hrun⟩
  · rw [hready.step_run (hfetch.trans hrun), exec_contBitblt start clear hready.head]
  · rw [hready.step_run (hfetch.trans hrun), exec_contBitbltRle start clear hready.head]

/-- Settles O16: both rows pop and no more, and a packet start that matches is of one of them. -/
theorem matchingContinuationByteIsDropped : Obligations.MatchingContinuationByteIsDropped := by
  refine ⟨fun start clear s e hhead => ?rows, fun d h => ⟨?opcodeField, ?noStart⟩,
    fun s e hready hfsm hsop hop hcont => hready.step_continues hfsm hsop hop hcont⟩
  case rows => exact ⟨exec_contBitblt start clear hhead, exec_contBitbltRle start clear hhead⟩
  case opcodeField => exact beq_iff_eq
  case noStart => simp [contMatches, opcodeOf, frameStart]

/-- The synchronization error with its event written out (R304, R310). -/
theorem syncError_eq (s : State) (d : Byte) : s.syncError d = { s with
    out := s.out ++ [.diag 0x03#8 [s.hdr &&& 0x3F#8, d]], remaining := 0#33, fsm := .scan } := by
  have hfield (h : Byte) : (opcodeOf h).setWidth 8 = h &&& 0x3F#8 := by
    revert h; decide
  rw [← hfield]
  rfl

/-- Settles O17: a packet start that does not match is no continuation byte. -/
theorem mismatchedContinuationByteAborts : Obligations.MismatchedContinuationByteAborts := by
  intro s e hready hfsm hsop hmismatch
  rw [← syncError_eq]
  exact hready.step_desync ((hready.fetch_packetStart hfsm hsop).trans (fetchContinuation_desync hmismatch))

/-! ## The step and the decoder (R140, R152, R283) -/

theorem step_boot {s : State} (hsched : s.sched = []) (hb : s.bootPending = true) :
    step s = .next { s.sendStatus with bootPending := false } := by
  rw [step_nil hsched, engineStep, fetch_boot hb]
  rfl

/-- What decodes at a packet start is what is fetched there. -/
theorem fetchContinuation_of_decode {s : State} {d : Byte} {i : Instr} {rest : List Byte}
    (h : decode s.params (.payloadStart s.hdr) [d] = .ok (i, rest)) : fetchContinuation s d = .run i := by
  unfold fetchContinuation
  cases hcont : decodeCont s.params s.hdr d with
  | none => simp [decode, hcont] at h
  | some j =>
    obtain ⟨rfl, -⟩ : j = i ∧ [] = rest := by simpa [decode, hcont] using h
    rfl

/-- Settles O21: in each of the framer's contexts the fetch is the decoder's answer. -/
theorem stepRunsTheDecodedInstruction : Obligations.StepRunsTheDecodedInstruction := by
  refine ⟨fun s e i hready _ => ⟨fun hfsm hdecode => ?scan, fun hfsm hdecode => ?header,
    fun hfsm hsop hdecode => ?packetStart, fun hfsm hsop hrle hrem hend hdecode => ?rleBoundary⟩,
    fun s hsched hb => ⟨s.sendStatus, rfl, step_boot hsched hb⟩⟩
  case scan => exact hready.step_run ((hready.fetch_scan hfsm).trans (fetchScan_of_decode hdecode))
  case header => exact hready.step_run ((hready.fetch_header hfsm).trans (fetchHeader_of_decode hdecode))
  case packetStart =>
    exact hready.step_run ((hready.fetch_packetStart hfsm hsop).trans (fetchContinuation_of_decode hdecode))
  case rleBoundary =>
    cases hdecode
    exact hready.step_run ((hready.fetch_payload hfsm hsop).trans (fetchPayload_boundary e.data hrle hrem hend))

/-! ## With nothing to read (R142) -/

theorem step_wait {s : State} (hsched : s.sched = []) (hb : s.bootPending = false) (hcount : s.fifoCount = 0#16) :
    step s = .next s := by
  rw [step_nil hsched, engineStep, fetch_wait hb hcount]

/-- Settles O28: by induction on the number of steps, each of them a wait. -/
theorem emptyRingBufferChangesNothing : Obligations.EmptyRingBufferChangesNothing := by
  intro s k hsched hb hcount
  induction k with
  | zero => rfl
  | succ k ih => rw [run_succ (step_wait hsched hb hcount), ih]

/-! ## The transitions (R157, R159, R161)

Every step on a head entry is one of those of `Transition`, each with the framer state it starts in. What holds of all
steps is then a case analysis over them. -/

/-- The steps the framer can take on the head entry `e`. -/
inductive Transition (s : State) (e : FifoEntry) : State → Prop where
  /-- SCAN refuses a byte that begins no frame (R144). -/
  | nonFrame (hfsm : s.fsm = .scan) : Transition s e (s.popped.takeError Config.diagFraming [e.data] .discard)
  /-- SCAN refuses an unknown opcode (R150). -/
  | unknown (hfsm : s.fsm = .scan) : Transition s e (s.refused e.data)
  /-- SCAN runs a NOP (R151). -/
  | nop (hfsm : s.fsm = .scan) : Transition s e (nopWith s.params.nopReports (s.popped.latchFrame [e.data]))
  /-- SCAN accepts a header byte (R143). -/
  | accept (hfsm : s.fsm = .scan) : Transition s e { s.popped.startFrame e.data with fsm := .header }
  /-- DISCARD drops an entry (R145). -/
  | drop (hfsm : s.fsm = .discard) : Transition s e s.popped
  /-- DISCARD meets a packet start (R146). -/
  | resync (hfsm : s.fsm = .discard) : Transition s e { s with fsm := .scan }
  /-- HEADER takes an argument byte (R147). -/
  | argument (hfsm : s.fsm = .header) : Transition s e (s.popped.pushArg e.data)
  /-- HEADER dispatches the command whose bytes are those received (R152). -/
  | dispatch {t : State} (i : Instr) (hfsm : s.fsm = .header) (hread : i.readIn s.params .scan = true)
      (hbytes : encode s.params i = s.frameBytes e.data) (hexec : exec i s = .next t) : Transition s e t
  /-- PAYLOAD drops a continuation byte (R155). -/
  | continuation (hfsm : s.fsm = .payload) : Transition s e s.popped
  /-- PAYLOAD meets a packet start that does not match (R156). -/
  | desync (hfsm : s.fsm = .payload) : Transition s e (s.syncError e.data)
  /-- PAYLOAD opens an RLE block (R186). -/
  | block (hfsm : s.fsm = .payload) (common : Bool) (size : BitVec 3) :
      Transition s e (s.popped.rleHeader common size)
  /-- PAYLOAD takes a raw payload byte (R181). -/
  | raw (hfsm : s.fsm = .payload) : Transition s e (s.popped.rawByte e.data).finishPayload
  /-- PAYLOAD takes a content byte of an RLE block (R188 to R190). -/
  | content (hfsm : s.fsm = .payload) : Transition s e (s.popped.rleContent e.data).finishPayload

section

variable {s t : State} {e : FifoEntry}

/-- `t` is the state a step is known to answer. -/
theorem Transition.of_step {u : State} (hu : Transition s e u) (hstep : step s = .next u) (h : step s = .next t) :
    Transition s e t := by
  cases hstep.symm.trans h
  exact hu

theorem Ready.transition_scan (hready : Ready s e) (h : step s = .next t) (hfsm : s.fsm = .scan) :
    Transition s e t := by
  cases hstart : frameStart e.data with
  | false => exact (Transition.nonFrame hfsm).of_step (hready.step_nonFrame hfsm hstart) h
  | true =>
    rcases Nat.eq_zero_or_pos (need s.params (opcodeOf e.data)) with hzero | hpos
    · rcases need_eq_zero_iff.1 hzero with hnop | hunknown
      · exact (Transition.nop hfsm).of_step (hready.step_nop hfsm hstart hnop) h
      · exact (Transition.unknown hfsm).of_step (hready.step_unknown hfsm hstart hunknown) h
    · have hfetch := (hready.fetch_scan hfsm).trans (fetchScan_accept hstart hpos)
      exact (Transition.accept hfsm).of_step (hready.step_accept hfetch) h

theorem Ready.transition_discard (hready : Ready s e) (h : step s = .next t) (hfsm : s.fsm = .discard) :
    Transition s e t := by
  obtain ⟨hdrop, hresync⟩ := discardDropsUpToThePacketStart s e hready hfsm
  cases hsop : e.sop with
  | false => exact (Transition.drop hfsm).of_step (hdrop hsop) h
  | true => exact (Transition.resync hfsm).of_step (hresync hsop) h

theorem Ready.transition_header (hready : Ready s e) (h : step s = .next t) (hfsm : s.fsm = .header) :
    Transition s e t := by
  have hfetch := hready.fetch_header hfsm
  unfold fetchHeader at hfetch
  split at hfetch
  next i hdecode =>
    obtain ⟨hbytes, -⟩ := encode_decode_scan hdecode
    rw [List.append_nil] at hbytes
    exact .dispatch i hfsm (decode_scan_readIn hdecode) hbytes ((hready.step_run hfetch).symm.trans h)
  next => cases (hready.step_stop hfetch).symm.trans h
  next => exact (Transition.argument hfsm).of_step (hready.step_argument hfetch) h

theorem Ready.transition_payload (hready : Ready s e) (h : step s = .next t) (hfsm : s.fsm = .payload) :
    Transition s e t := by
  cases hsop : e.sop with
  | true =>
    have hfetch := hready.fetch_packetStart hfsm hsop
    rcases fetchContinuation_cases s e.data with ⟨start, clear, hrun⟩ | ⟨start, clear, hrun⟩ | hdesync
    · have hstep := (hready.step_run (hfetch.trans hrun)).trans (exec_contBitblt start clear hready.head)
      exact (Transition.continuation hfsm).of_step hstep h
    · have hstep := (hready.step_run (hfetch.trans hrun)).trans (exec_contBitbltRle start clear hready.head)
      exact (Transition.continuation hfsm).of_step hstep h
    · exact (Transition.desync hfsm).of_step (hready.step_desync (hfetch.trans hdesync)) h
  | false =>
    have hfetch := hready.fetch_payload hfsm hsop
    unfold fetchPayload at hfetch
    split_ifs at hfetch
    · cases (hready.step_stop hfetch).symm.trans h
    · exact (Transition.raw hfsm).of_step (hready.step_raw hfetch) h
    · have hstep := (hready.step_run hfetch).trans (exec_decodeRle e.data hready.head)
      exact (Transition.block hfsm _ _).of_step hstep h
    · exact (Transition.content hfsm).of_step (hready.step_content hfetch) h

/-- What a step on the head entry can be, by the framer's state (R161). -/
theorem Ready.transition (hready : Ready s e) (h : step s = .next t) : Transition s e t := by
  cases hfsm : s.fsm with
  | scan => exact hready.transition_scan h hfsm
  | discard => exact hready.transition_discard h hfsm
  | header => exact hready.transition_header h hfsm
  | payload => exact hready.transition_payload h hfsm

end

/-! ### The header byte and the boot step's flag through the handlers -/

/-- The registers that no handler changes after the frame registers are set. -/
def heldRegs (s : State) : Byte × Bool := (s.hdr, s.bootPending)

theorem heldRegs_eq_iff {s t : State} : heldRegs t = heldRegs s ↔ t.hdr = s.hdr ∧ t.bootPending = s.bootPending :=
  Prod.mk_inj

@[simp] theorem nopWith_heldRegs (reports : Bool) (s : State) : heldRegs (nopWith reports s) = heldRegs s := by
  cases reports <;> rfl

@[simp] theorem fillRect_heldRegs (s : State) (l t r b : Coord) (c : Pixel) :
    heldRegs (s.fillRect l t r b c) = heldRegs s := by
  rw [State.fillRect_eq]
  split <;> rfl

@[simp] theorem copyAreaWith_heldRegs (s : State) (cap : Nat) (answer : Nat → List Pixel)
    (sx sy dx dy w h : Coord) : heldRegs (s.copyAreaWith cap answer sx sy dx dy w h) = heldRegs s := by
  rcases s.copyAreaWith_cases cap answer sx sy dx dy w h with ⟨-, heq⟩ | ⟨-, -, heq⟩ | ⟨-, -, heq⟩ <;> rw [heq] <;> rfl

@[simp] theorem bitBltStart_heldRegs (s : State) (x y w h : Coord) :
    heldRegs (s.bitBltStart x y w h) = heldRegs s := by
  rcases s.bitBltStart_cases x y w h with ⟨-, heq⟩ | ⟨-, heq⟩ <;> rw [heq] <;> rfl

@[simp] theorem finishPayload_heldRegs (s : State) : heldRegs s.finishPayload = heldRegs s := by
  rcases s.finishPayload_cases with ⟨-, heq⟩ | ⟨-, heq⟩ <;> rw [heq]
  rfl

theorem bitBltStart_fsm (s : State) (x y w h : Coord) :
    (s.bitBltStart x y w h).fsm = .scan ∨ (s.bitBltStart x y w h).fsm = .payload := by
  rcases s.bitBltStart_cases x y w h with ⟨-, heq⟩ | ⟨-, heq⟩ <;> rw [heq]
  · exact .inl rfl
  · exact .inr rfl

/-- A raw payload byte moves neither the framer nor the registers held. -/
theorem rawByte_held (s : State) (d : Byte) : (s.rawByte d).fsm = s.fsm ∧ heldRegs (s.rawByte d) = heldRegs s := by
  show (s.pixelByte d).fsm = s.fsm ∧ heldRegs (s.pixelByte d) = heldRegs s
  rw [State.pixelByte_eq]
  split <;> exact ⟨rfl, rfl⟩

/-- Nor does a content byte of an RLE block. -/
theorem rleContent_held (s : State) (d : Byte) :
    (s.rleContent d).fsm = s.fsm ∧ heldRegs (s.rleContent d) = heldRegs s := by
  cases hmode : s.blkCommon
  case false =>
    rw [State.rleContent_literal d hmode]
    exact rawByte_held { s with blkPos := s.blkPos + 1#5 } d
  case true =>
    by_cases hpos : s.blkPos + 1#5 = s.blkRem - 1#5
    · rw [State.rleContent_colorLo d hmode hpos]
      exact ⟨rfl, rfl⟩
    · rw [State.rleContent_colorHi d hmode hpos]
      exact ⟨rfl, rfl⟩

/-- A command with arguments latches its header byte and leaves the framer in SCAN or, a BitBlt, in PAYLOAD (R240,
R250, R258). -/
theorem exec_command_next {i : Instr} {s t : State} {h : Byte} {as : List Byte} (hexec : exec i s = .next t)
    (hread : i.readIn s.params .scan = true) (hbytes : encode s.params i = h :: as) (has : as ≠ []) :
    (t.fsm = .scan ∨ t.fsm = .payload) ∧ heldRegs t = (h, s.bootPending) := by
  have hi : i ≠ .status := ne_status_of_readIn_scan hread
  obtain ⟨e, hhead⟩ : ∃ e, s.fifoHead? = some e := by
    cases hhead : s.fifoHead? with
    | none => rw [exec_fault_of_no_head hi hhead] at hexec; cases hexec
    | some e => exact ⟨e, rfl⟩
  unfold exec at hexec
  cases i with
  | fill clear color =>
    cases hbytes
    cases (withPop_some hhead).symm.trans hexec
    exact ⟨.inl rfl, rfl⟩
  | rect clear l t' r b color =>
    cases hbytes
    cases (withPop_some hhead).symm.trans hexec
    exact ⟨.inl rfl, fillRect_heldRegs ..⟩
  | copyArea clear sx sy dx dy w h' =>
    cases hbytes
    cases (withPop_some hhead).symm.trans hexec
    exact ⟨.inl rfl, copyAreaWith_heldRegs ..⟩
  | bitblt clear x y w h' =>
    cases hbytes
    cases (withPop_some hhead).symm.trans hexec
    exact ⟨bitBltStart_fsm .., bitBltStart_heldRegs ..⟩
  | bitbltRle clear x y w h' =>
    cases hbytes
    cases (withPop_some hhead).symm.trans hexec
    exact ⟨bitBltStart_fsm .., bitBltStart_heldRegs ..⟩
  | nop | unknownOpcode06 | unknownOpcode08 | unknownOpcode10 | unknownOpcode20 | nonFrame =>
    cases hbytes
    exact absurd rfl has
  | contBitblt | contBitbltRle | rleLiteral | rleCommon | status => cases hread

/-- A dispatched command is the one received: its header byte stays in `st.hdr` (R152). -/
theorem dispatch_held {i : Instr} {s t : State} {d : Byte} (hread : i.readIn s.params .scan = true)
    (hbytes : encode s.params i = s.frameBytes d) (hexec : exec i s = .next t) :
    (t.fsm = .scan ∨ t.fsm = .payload) ∧ heldRegs t = heldRegs s :=
  exec_command_next hexec hread hbytes (List.append_ne_nil_of_right_ne_nil _ (List.cons_ne_nil d []))

/-! ### The end of a PAYLOAD step -/

/-- A step in PAYLOAD that takes a payload byte goes on, or completes with the status packet last (R154, R159). -/
theorem finishPayload_transition {s u : State} (hfsm : s.fsm = .payload)
    (hheld : u.fsm = s.fsm ∧ heldRegs u = heldRegs s) (hdraws : Draws s u) :
    u.finishPayload.hdr = s.hdr ∧ (u.finishPayload.fsm = .payload ∨
      (u.finishPayload.fsm = .scan ∧ u.finishPayload.remaining = 0#33 ∧
        ∃ ts, u.finishPayload.out = s.out ++ ts ++ [.statusOut (statusOf u.finishPayload.dirty)])) := by
  obtain ⟨hstay, hregs⟩ := hheld
  refine ⟨(heldRegs_eq_iff.1 ((finishPayload_heldRegs u).trans hregs)).1, ?_⟩
  rcases u.finishPayload_cases with ⟨hzero, heq⟩ | ⟨-, heq⟩ <;> rw [heq]
  · obtain ⟨ts, hout, -⟩ := hdraws
    refine .inr ⟨rfl, hzero, ts, ?_⟩
    rw [← buildStatus_eq_statusOf, ← hout]
    rfl
  · exact .inl (hstay.trans hfsm)

/-! ### The table

In each framer state the transitions that start in another one are ruled out by that alone. -/

section

variable {s t : State} {e : FifoEntry}

theorem Transition.of_scan (h : Transition s e t) (hfsm : s.fsm = .scan) :
    t.fsm = .scan ∨ t.fsm = .discard ∨ t.fsm = .header := by
  cases h with
  | nonFrame => exact .inr (.inl rfl)
  | unknown => exact .inr (.inl rfl)
  | nop =>
    cases s.params.nopReports
    · exact .inl hfsm
    · exact .inl rfl
  | accept => exact .inr (.inr rfl)
  | _ => simp_all

theorem Transition.of_discard (h : Transition s e t) (hfsm : s.fsm = .discard) :
    (t.fsm = .discard ∨ t.fsm = .scan) ∧ t.hdr = s.hdr ∧ t.out = s.out := by
  cases h with
  | drop => exact ⟨.inl hfsm, rfl, rfl⟩
  | resync => exact ⟨.inr rfl, rfl, rfl⟩
  | _ => simp_all

theorem Transition.of_header (h : Transition s e t) (hfsm : s.fsm = .header) :
    (t.fsm = .header ∨ t.fsm = .scan ∨ t.fsm = .payload) ∧ t.hdr = s.hdr := by
  cases h with
  | argument => exact ⟨.inl hfsm, rfl⟩
  | dispatch i _ hread hbytes hexec =>
    obtain ⟨htarget, hheld⟩ := dispatch_held hread hbytes hexec
    exact ⟨.inr htarget, (heldRegs_eq_iff.1 hheld).1⟩
  | _ => simp_all

theorem Transition.of_payload (h : Transition s e t) (hfsm : s.fsm = .payload) :
    t.hdr = s.hdr ∧ (t.fsm = .payload ∨ (t.fsm = .scan ∧ t.remaining = 0#33 ∧
      ((∃ ts, t.out = s.out ++ ts ++ [.statusOut (statusOf t.dirty)]) ∨
        t.out = s.out ++ [.diag 0x03#8 [s.hdr &&& 0x3F#8, e.data]]))) := by
  cases h with
  | continuation => exact ⟨rfl, .inl hfsm⟩
  | desync =>
    rw [syncError_eq]
    exact ⟨rfl, .inr ⟨rfl, rfl, .inr rfl⟩⟩
  | block => exact ⟨rfl, .inl hfsm⟩
  | raw =>
    obtain ⟨hhdr, hend⟩ := finishPayload_transition (s := s.popped) hfsm (rawByte_held ..) (draws_rawByte ..)
    exact ⟨hhdr, hend.imp_right fun ⟨hscan, hload, hreport⟩ => ⟨hscan, hload, .inl hreport⟩⟩
  | content =>
    obtain ⟨hhdr, hend⟩ := finishPayload_transition (s := s.popped) hfsm (rleContent_held ..) (draws_rleContent ..)
    exact ⟨hhdr, hend.imp_right fun ⟨hscan, hload, hreport⟩ => ⟨hscan, hload, .inl hreport⟩⟩
  | _ => simp_all

end

/-- Settles O43: by the transitions that start in each of the framer's states. -/
theorem framerFollowsItsTransitionTable : Obligations.FramerFollowsItsTransitionTable := by
  intro s t e hready hstep
  have htransition := hready.transition hstep
  exact ⟨htransition.of_scan, htransition.of_discard, htransition.of_header, htransition.of_payload⟩

/-! ## Progress (R160)

A step on the head entry pops it, or it is one of the two that leave it for SCAN, and SCAN always pops. -/

section

variable {s t u : State} {e : FifoEntry}

theorem Handled.count_lt (h : Handled s.popped t) (hne : s.fifoCount ≠ 0#16) :
    t.fifoCount.toNat < s.fifoCount.toNat := by
  obtain ⟨-, -, -, hcount⟩ := State.ring_eq_iff.1 h.ring
  rw [hcount, State.popped_count_toNat hne]
  bv_omega

/-- Only resynchronization and the synchronization error leave the entry at the head, and both go to SCAN. -/
theorem Transition.progress (h : Transition s e t) (hne : s.fifoCount ≠ 0#16) :
    t.fifoCount.toNat < s.fifoCount.toNat ∨ (s.fsm ≠ .scan ∧ t.fsm = .scan) := by
  cases h with
  | nonFrame => exact .inl (Handled.count_lt (.pending (quiet_takeError ..)) hne)
  | unknown =>
    exact .inl (Handled.count_lt (.pending ((quiet_latchFrame s.popped [e.data]).trans (quiet_takeError ..))) hne)
  | nop => exact .inl (Handled.count_lt (handled_nopWith _ (quiet_latchFrame ..)) hne)
  | accept => exact .inl (Handled.count_lt (.pending (.of_eq rfl rfl rfl)) hne)
  | drop => exact .inl (Handled.count_lt (.pending (.refl _)) hne)
  | resync hfsm => exact .inr ⟨by rw [hfsm]; decide, rfl⟩
  | argument => exact .inl (Handled.count_lt (.pending (.of_eq rfl rfl rfl)) hne)
  | dispatch i _ hread _ hexec =>
    obtain ⟨-, hhandled⟩ := exec_next_handled (ne_status_of_readIn_scan hread) hexec
    exact .inl (hhandled.count_lt hne)
  | continuation => exact .inl (Handled.count_lt (.pending (.refl _)) hne)
  | desync hfsm => exact .inr ⟨by rw [hfsm]; decide, rfl⟩
  | block => exact .inl (Handled.count_lt (.pending (quiet_rleHeader ..)) hne)
  | raw => exact .inl (Handled.count_lt (handled_finishPayload (quiet_rawByte ..)) hne)
  | content => exact .inl (Handled.count_lt (handled_finishPayload (quiet_rleContent ..)) hne)

/-- No step on the head entry sets the boot step's flag (R32). -/
theorem Transition.bootPending (h : Transition s e t) : t.bootPending = s.bootPending := by
  cases h with
  | nop => exact (heldRegs_eq_iff.1 (nopWith_heldRegs ..)).2
  | dispatch i _ hread hbytes hexec => exact (heldRegs_eq_iff.1 (dispatch_held hread hbytes hexec).2).2
  | raw => exact (heldRegs_eq_iff.1 ((finishPayload_heldRegs _).trans (rawByte_held ..).2)).2
  | content => exact (heldRegs_eq_iff.1 ((finishPayload_heldRegs _).trans (rleContent_held ..).2)).2
  | _ => rfl

/-- A state the Engine alone moves on from, past the boot step. -/
structure Draining (s : State) : Prop where
  inv : Inv s
  sched : s.sched = []
  booted : s.bootPending = false

theorem Draining.exists_ready (h : Draining s) (hne : s.fifoCount ≠ 0#16) : ∃ e, Ready s e :=
  have ⟨e, hhead⟩ := h.inv.ring.exists_head hne
  ⟨e, h.sched, h.booted, hhead⟩

theorem step_next_count_le (hsched : s.sched = []) (h : step s = .next t) : t.fifoCount.toNat ≤ s.fifoCount.toNat :=
  engineStep_next_count_le ((step_nil hsched).symm.trans h)

/-- Past any step of the Engine the boot step is past. -/
theorem step_next_booted (hinv : Inv s) (hsched : s.sched = []) (h : step s = .next t) : t.bootPending = false := by
  cases hb : s.bootPending with
  | true =>
    cases (step_boot hsched hb).symm.trans h
    rfl
  | false =>
    by_cases hcount : s.fifoCount = 0#16
    · cases (step_wait hsched hb hcount).symm.trans h
      exact hb
    · obtain ⟨e, hready⟩ := Draining.exists_ready ⟨hinv, hsched, hb⟩ hcount
      exact (hready.transition h).bootPending.trans hb

/-- The Engine takes a step, the boot step or another, and can go on draining. -/
theorem exists_step_draining (hinv : Inv s) (hsched : s.sched = []) :
    ∃ t, step s = .next t ∧ Draining t ∧ t.fifoCount.toNat ≤ s.fifoCount.toNat := by
  obtain ⟨t, hstep, ht⟩ := everyStepSucceedsAndKeepsTheInvariant s hinv
  obtain ⟨-, -, hmoves⟩ := engineStep_next_surroundings ((step_nil hsched).symm.trans hstep)
  exact ⟨t, hstep, ⟨ht, hmoves.trans hsched, step_next_booted hinv hsched hstep⟩, step_next_count_le hsched hstep⟩

theorem Draining.exists_step (h : Draining s) :
    ∃ t, step s = .next t ∧ Draining t ∧ t.fifoCount.toNat ≤ s.fifoCount.toNat :=
  exists_step_draining h.inv h.sched

theorem Draining.next (h : Draining s) (hstep : step s = .next t) : Draining t := by
  obtain ⟨t', hstep', ht, -⟩ := h.exists_step
  cases hstep'.symm.trans hstep
  exact ht

/-- In two steps an entry is popped: where the first leaves it at the head, the second is a step in SCAN. -/
theorem Draining.two_steps (h : Draining s) (hne : s.fifoCount ≠ 0#16) (hst : step s = .next t)
    (htu : step t = .next u) : u.fifoCount.toNat < s.fifoCount.toNat := by
  have ht := h.next hst
  have hle := step_next_count_le h.sched hst
  have hle' := step_next_count_le ht.sched htu
  obtain ⟨e, hready⟩ := h.exists_ready hne
  rcases (hready.transition hst).progress hne with hlt | ⟨-, hscan⟩
  · omega
  · by_cases hempty : t.fifoCount = 0#16
    · bv_omega
    · obtain ⟨e', hready'⟩ := ht.exists_ready hempty
      rcases (hready'.transition htu).progress hempty with hlt | ⟨hnotScan, -⟩
      · omega
      · exact absurd hscan hnotScan

/-- Two steps for each entry empty the ring buffer. -/
theorem Draining.run_empties {n : Nat} (h : Draining s) (hn : s.fifoCount.toNat ≤ n) :
    ∃ t, Host.Core.run Sys2Proof.core (2 * n) s = .next t ∧ t.fifoCount = 0#16 := by
  induction n generalizing s with
  | zero => exact ⟨s, rfl, by bv_omega⟩
  | succ n ih =>
    obtain ⟨t, hst, ht, htle⟩ := h.exists_step
    obtain ⟨u, htu, hu, hule⟩ := ht.exists_step
    have hcount : u.fifoCount.toNat ≤ n := by
      by_cases hempty : s.fifoCount = 0#16
      · have hzero : s.fifoCount.toNat = 0 := by rw [hempty]; rfl
        omega
      · have hlt := h.two_steps hempty hst htu
        omega
    obtain ⟨v, hrun, hv⟩ := ih hu hcount
    exact ⟨v, (run_succ hst).trans ((run_succ htu).trans hrun), hv⟩

end

/-- Settles O45: one step for the boot step, and then two for each entry. -/
theorem engineDrainsTheRingBuffer : Obligations.EngineDrainsTheRingBuffer := by
  refine ⟨fun s hinv hsched => ?_, fun s t u hinv hsched hb hne hst htu => ?_⟩
  · obtain ⟨t, hstep, ht, hle⟩ := exists_step_draining hinv hsched
    obtain ⟨u, hrun, hu⟩ := ht.run_empties hle
    exact ⟨u, (run_succ hstep).trans hrun, hu⟩
  · exact Draining.two_steps ⟨hinv, hsched, hb⟩ hne hst htu

end Sys2Proof.Safety

/-! # The RLE decoder and the pixel assembler (41_rle_decoder.md, 42_pixel_sequencer.md): what a payload byte does, and
what a whole payload pushes

Proofs of the statements on R154, R181 to R183, R188 to R191, R196, R197, R211 and R253. -/

namespace Sys2Proof.Safety

open Sys2Proof.Machine

/-! ## The end of a PAYLOAD step and half a pixel (R154, R181, R211) -/

theorem dirtyAfter_eq (h : Byte) (dirty : Bool) : dirtyAfter h dirty = (dirty && !clearDirty h) := by
  unfold dirtyAfter
  split <;> simp [*]

theorem complete_eq_completed (s : State) : s.complete = completed s (clearDirty s.hdr) [] := by
  rw [State.complete_eq, dirtyAfter_eq, buildStatus_eq_statusOf, completed, List.append_nil]

theorem finishPayload_eq_ended (s : State) : s.finishPayload = ended s := by
  rw [ended, State.finishPayload, complete_eq_completed]
  rfl

theorem ended_of_loaded {s : State} (h : s.remaining ≠ 0#33) : ended s = s := if_neg h

theorem ended_of_unloaded {s : State} (h : s.remaining = 0#33) : ended s = completed s (clearDirty s.hdr) [] :=
  if_pos h

theorem consumed_eq {s : State} {n : Nat} (h : n ≤ s.remaining.toNat) :
    consumed s n = { s with remaining := s.remaining - BitVec.ofNat 33 n } := by
  have hload : BitVec.ofNat 33 (s.remaining.toNat - n) = s.remaining - BitVec.ofNat 33 n := by bv_omega
  rw [consumed, hload]

theorem consumed_remaining_toNat (s : State) (n : Nat) :
    (consumed s n).remaining.toNat = s.remaining.toNat - n := by
  show (BitVec.ofNat 33 (s.remaining.toNat - n)).toNat = _
  have := s.remaining.isLt
  rw [BitVec.toNat_ofNat, Nat.mod_eq_of_lt (by omega)]

theorem rawByte_eq_consumed {s : State} (d : Byte) (h : s.remaining ≠ 0#33) :
    s.rawByte d = consumed (assembled s d) 1 := by
  have hassembled : s.pixelByte d = assembled s d := by rw [State.pixelByte_eq, assembled, le16_eq_append]
  have hload : (assembled s d).remaining = s.remaining := by
    unfold assembled
    split <;> rfl
  rw [consumed_eq (by rw [hload]; bv_omega), ← hassembled]
  rfl

/-! ## The payload bytes by mode (R181, R188 to R190) -/

/-- What is fetched inside a packet of a BITBLT (R154, R180). -/
theorem fetchPayload_raw {s : State} (d : Byte) (hraw : opcodeOf s.hdr = s.params.opcBitblt)
    (hrem : s.remaining ≠ 0#33) : fetchPayload s d = .raw d := by
  rw [fetchPayload, if_neg hrem, if_pos hraw]

/-- What is fetched inside a block of a BITBLT_RLE (R180, R185). -/
theorem fetchPayload_content {s : State} (d : Byte) (hrle : opcodeOf s.hdr ≠ s.params.opcBitblt)
    (hrem : s.remaining ≠ 0#33) (hopen : s.blkPos.toNat < s.blkRem.toNat) : fetchPayload s d = .content d := by
  rw [fetchPayload, if_neg hrem, if_neg hrle, if_neg (by rw [BitVec.le_def]; omega)]

/-- Settles O19: the step is `RawByte`, which assembles half a pixel and takes 1 off the load. -/
theorem rawByteIsHalfAPixel : Obligations.RawByteIsHalfAPixel := by
  intro s e hready hfsm hsop hraw hrem
  have hfetch := (hready.fetch_payload hfsm hsop).trans (fetchPayload_raw e.data hraw hrem)
  rw [hready.step_raw hfetch, finishPayload_eq_ended, rawByte_eq_consumed (s := s.popped) e.data hrem]
  rfl

/-- A step of a BITBLT_RLE inside a block takes a content byte (R185, R198). -/
theorem step_rleContent {s : State} {e : FifoEntry} (hready : Ready s e) (hfsm : s.fsm = .payload)
    (hsop : e.sop = false) (hrle : opcodeOf s.hdr ≠ s.params.opcBitblt) (hrem : s.remaining ≠ 0#33)
    (hopen : s.blkPos.toNat < s.blkRem.toNat) : step s = .next (ended (s.popped.rleContent e.data)) := by
  have hfetch := (hready.fetch_payload hfsm hsop).trans (fetchPayload_content e.data hrle hrem hopen)
  rw [hready.step_content hfetch, finishPayload_eq_ended]

/-- The second colour byte takes twice the run off the load, and the run is cut at it (R189, R191). -/
theorem rleContent_secondColour {s : State} (d : Byte) (hmode : s.blkCommon = true)
    (hpos : s.blkPos.toNat + 1 = s.blkRem.toNat) :
    s.rleContent d = consumed { s with
      blkPos := s.blkPos + 1#5
      out := s.out ++ List.replicate s.runLength (.pushPixel (d ++ s.colorLo)) } (2 * s.runLength) := by
  have hsecond : s.blkPos + 1#5 ≠ s.blkRem - 1#5 := by bv_omega
  have hcut : s.runLength ≤ s.remaining.toNat / 2 := min_le_right _ _
  have hload : 2 * s.runLength ≤ s.remaining.toNat := by omega
  rw [State.rleContent_colorHi d hmode hsecond, le16_eq_append]
  symm
  exact consumed_eq hload

/-- Settles O20: each clause is one case of the content byte. -/
theorem rleContentBytesDecode : Obligations.RleContentBytesDecode := by
  intro s e hready hfsm hsop hrle hrem
  have hstep := step_rleContent hready hfsm hsop hrle hrem
  refine ⟨fun hmode hpos => ?firstColour, fun hmode hpos => ?secondColour, fun hmode hopen => ?literal⟩
  case firstColour =>
    have hfirst : s.blkPos + 1#5 = s.blkRem - 1#5 := by bv_omega
    rw [hstep (by omega), State.rleContent_colorLo (s := s.popped) e.data hmode hfirst]
    exact congrArg _ (ended_of_loaded hrem)
  case secondColour =>
    rw [hstep (by omega), rleContent_secondColour (s := s.popped) e.data hmode hpos]
    rfl
  case literal =>
    have hcontent := (State.rleContent_literal (s := s.popped) e.data hmode).trans (rawByte_eq_consumed e.data hrem)
    rw [hstep hopen, hcontent]
    rfl

/-! ## Pixels on the wire (R70, R114) -/

theorem lo_eq_loByte (v : BitVec 16) : lo v = loByte v := by
  apply BitVec.eq_of_toNat_eq
  simp only [lo, loByte, BitVec.toNat_ofNat, BitVec.toNat_setWidth]
  omega

theorem hi_eq_hiByte (v : BitVec 16) : hi v = hiByte v := by
  apply BitVec.eq_of_toNat_eq
  simp only [hi, hiByte, BitVec.toNat_ofNat, BitVec.toNat_setWidth, BitVec.toNat_ushiftRight,
    Nat.shiftRight_eq_div_pow]

/-- The second wire byte of a pixel, followed on the low side by its first, is the pixel. -/
theorem hi_append_lo (v : BitVec 16) : hi v ++ lo v = v := by
  rw [lo_eq_loByte, hi_eq_hiByte, ← le16_eq_append, le16_fieldBytes]

theorem pixelBytes_cons (p : Pixel) (px : List Pixel) : pixelBytes (p :: px) = lo p :: hi p :: pixelBytes px := rfl

theorem pixelBytes_length (px : List Pixel) : (pixelBytes px).length = 2 * px.length := by
  induction px with
  | nil => rfl
  | cons p px ih => rw [pixelBytes_cons, List.length_cons, List.length_cons, ih, List.length_cons]; omega

/-- The byte of a begun pixel that the assembler holds (R29). -/
def latched (s : State) : List Byte := if s.pxHalf then [s.pxLo] else []

theorem latched_length (s : State) : (latched s).length = s.pxHalf.toNat := by
  unfold latched
  cases s.pxHalf <;> rfl

/-- Where the bytes latched and those to come are whole pixels, there are bytes to come exactly if there are pixels. -/
theorem latched_append_nil_iff {s : State} {bs : List Byte} {px : List Pixel}
    (h : latched s ++ bs = pixelBytes px) : bs = [] ↔ px = [] := by
  have hlen : s.pxHalf.toNat + bs.length = 2 * px.length := by
    rw [← latched_length, ← List.length_append, h, pixelBytes_length]
  have hhalf := s.pxHalf.toNat_le
  rw [← List.length_eq_zero_iff, ← List.length_eq_zero_iff (l := px)]
  omega

/-! ## What a payload byte pushes and takes off the load (R154, R181, R192) -/

/-- What no payload byte changes before the end of its step. -/
def streamRegs (s : State) :
    Fsm × (Byte × Bool) × Config.Params × List Move × Bool × Memory × BitVec 15 × BitVec 15 × BitVec 16 :=
  (s.fsm, heldRegs s, s.params, s.sched, s.dirty, s.ring)

theorem streamRegs_eq_iff {s t : State} : streamRegs t = streamRegs s ↔
    t.fsm = s.fsm ∧ (t.hdr = s.hdr ∧ t.bootPending = s.bootPending) ∧ t.params = s.params ∧ t.sched = s.sched ∧
      t.dirty = s.dirty ∧ t.ring = s.ring := by
  rw [← heldRegs_eq_iff]
  simp only [streamRegs, Prod.mk.injEq]

/-- `u` is `s` after a payload byte has pushed the pixels `ps`: what was left of the load and the latched byte is now in
`ps`, or still left or latched. -/
structure Pushes (s : State) (ps : List Pixel) (u : State) : Prop where
  kept : streamRegs u = streamRegs s
  out : u.out = s.out ++ ps.map .pushPixel
  load : u.remaining.toNat + u.pxHalf.toNat + 2 * ps.length = s.remaining.toNat + s.pxHalf.toNat

/-- A byte that pushes nothing and leaves the load and the latch. -/
theorem Pushes.nothing {s u : State} (hkept : streamRegs u = streamRegs s) (hout : u.out = s.out)
    (hrem : u.remaining = s.remaining) (hhalf : u.pxHalf = s.pxHalf) : Pushes s [] u :=
  ⟨hkept, by rw [hout, List.map_nil, List.append_nil], by rw [hrem, hhalf]; rfl⟩

theorem assembled_low {s : State} (d : Byte) (h : s.pxHalf = false) :
    assembled s d = { s with pxLo := d, pxHalf := true } := by
  rw [assembled, h]
  rfl

theorem assembled_high {s : State} (d : Byte) (h : s.pxHalf = true) :
    assembled s d = { s with out := s.out ++ [.pushPixel (d ++ s.pxLo)], pxHalf := false } := by
  rw [assembled, h]
  rfl

/-- The cursors of the RLE decoder (R26, R27). -/
def blockRegs (s : State) : BitVec 5 × BitVec 5 × Bool := (s.blkRem, s.blkPos, s.blkCommon)

theorem halfPixel_blockRegs (s : State) (d : Byte) : blockRegs (consumed (assembled s d) 1) = blockRegs s := by
  cases hhalf : s.pxHalf
  · rw [assembled_low d hhalf]; rfl
  · rw [assembled_high d hhalf]; rfl

/-- Half a pixel of those to come: its first byte is latched, its second pushes it (R182, R211). -/
theorem halfPixel_pushes {s : State} {d : Byte} {bs : List Byte} {px : List Pixel} (hrem : s.remaining ≠ 0#33)
    (hbytes : latched s ++ d :: bs = pixelBytes px) :
    ∃ ps px', px = ps ++ px' ∧ Pushes s ps (consumed (assembled s d) 1) ∧
      latched (consumed (assembled s d) 1) ++ bs = pixelBytes px' := by
  have hload : s.remaining.toNat ≠ 0 := by bv_omega
  unfold latched at hbytes
  cases hhalf : s.pxHalf <;> rw [hhalf] at hbytes
  case false =>
    rw [assembled_low d hhalf]
    refine ⟨[], px, rfl, ⟨rfl, (List.append_nil _).symm, ?_⟩, hbytes⟩
    rw [consumed_remaining_toNat, hhalf]
    show s.remaining.toNat - 1 + 1 + 0 = s.remaining.toNat + 0
    omega
  case true =>
    rw [assembled_high d hhalf]
    obtain _ | ⟨p, px⟩ := px
    · cases hbytes
    · obtain ⟨hlo, hrest⟩ := List.cons.inj hbytes
      obtain ⟨hhi, hrest⟩ := List.cons.inj hrest
      refine ⟨[p], px, rfl, ⟨rfl, ?_, ?_⟩, hrest⟩
      · rw [hlo, hhi, hi_append_lo]
        rfl
      · rw [consumed_remaining_toNat, hhalf]
        show s.remaining.toNat - 1 + 0 + 2 = s.remaining.toNat + 1
        omega

/-- A step that leaves some of the load is the same with the end of a PAYLOAD step after it (R154). -/
theorem step_next_ended {s u : State} (hstep : step s = .next u) (hrem : u.remaining ≠ 0#33) :
    step s = .next (ended u) := by
  rw [hstep, ended_of_loaded hrem]

/-! ## What is due of an RLE block (R117, R118, R187 to R190) -/

/-- The content bytes due of the open block and the pixels it has still to push. -/
inductive BlockDue (s : State) : List Byte → List Pixel → Prop where
  /-- At a block boundary nothing is due. -/
  | closed (hend : s.blkRem.toNat ≤ s.blkPos.toNat) (hwhole : s.pxHalf = false) : BlockDue s [] []
  /-- The bytes of a literal block's pixels, of the first perhaps only the second. -/
  | literal {bs : List Byte} {px : List Pixel} (hmode : s.blkCommon = false)
      (hbytes : latched s ++ bs = pixelBytes px) (hopen : s.blkRem.toNat = s.blkPos.toNat + bs.length) :
      BlockDue s bs px
  /-- Both colour bytes of a common block. -/
  | colour {n : Nat} {color : Pixel} (hmode : s.blkCommon = true) (hwhole : s.pxHalf = false)
      (hlen : s.blkRem.toNat = 2 * n) (hpos : s.blkPos.toNat + 2 = s.blkRem.toNat) :
      BlockDue s [lo color, hi color] (List.replicate n color)
  /-- The second colour byte of a common block. -/
  | colourHigh {n : Nat} {color : Pixel} (hmode : s.blkCommon = true) (hwhole : s.pxHalf = false)
      (hlen : s.blkRem.toNat = 2 * n) (hpos : s.blkPos.toNat + 1 = s.blkRem.toNat) (hlo : s.colorLo = lo color) :
      BlockDue s [hi color] (List.replicate n color)

theorem BlockDue.nil_iff {s : State} {bs : List Byte} {px : List Pixel} (h : BlockDue s bs px) :
    bs = [] ↔ px = [] := by
  cases h with
  | closed => exact iff_of_true rfl rfl
  | literal hmode hbytes hopen => exact latched_append_nil_iff hbytes
  | colour hmode hwhole hlen hpos =>
    rw [List.replicate_eq_nil_iff]
    exact iff_of_false (List.cons_ne_nil _ _) (by omega)
  | colourHigh hmode hwhole hlen hpos =>
    rw [List.replicate_eq_nil_iff]
    exact iff_of_false (List.cons_ne_nil _ _) (by omega)

/-- With nothing due the decoder is at a block boundary, which is a pixel boundary (R193). -/
theorem BlockDue.boundary {s : State} {px : List Pixel} (h : BlockDue s [] px) :
    s.blkRem.toNat ≤ s.blkPos.toNat ∧ s.pxHalf = false := by
  cases h with
  | closed hend hwhole => exact ⟨hend, hwhole⟩
  | literal hmode hbytes hopen =>
    obtain rfl := (latched_append_nil_iff hbytes).1 rfl
    refine ⟨hopen.le, ?_⟩
    have hlen := congrArg List.length hbytes
    rw [List.append_nil, latched_length] at hlen
    exact Bool.toNat_eq_zero.1 hlen

section

variable {s : State} {e : FifoEntry} (hready : Ready s e) (hfsm : s.fsm = .payload) (hsop : e.sop = false)
  (hrem : s.remaining ≠ 0#33)

include hready hfsm hsop hrem

/-- A content byte due of the open block pushes the first of the block's pixels, and the others stay due. -/
theorem BlockDue.step {bs : List Byte} {px : List Pixel} (h : BlockDue s (e.data :: bs) px)
    (hrle : opcodeOf s.hdr ≠ s.params.opcBitblt) (hload : 2 * px.length ≤ s.remaining.toNat + s.pxHalf.toNat) :
    ∃ u ps px', step s = .next (ended u) ∧ px = ps ++ px' ∧ Pushes (pop s) ps u ∧ BlockDue u bs px' := by
  obtain ⟨hfirst, hsecond, hliteral⟩ := rleContentBytesDecode s e hready hfsm hsop hrle hrem
  generalize hd : e.data = d at h
  cases h with
  | literal hmode hbytes hopen =>
    rw [List.length_cons] at hopen
    obtain ⟨ps, px', hpx, hpushes, hrest⟩ :=
      halfPixel_pushes (s := { pop s with blkPos := s.blkPos + 1#5 }) hrem hbytes
    have hregs := halfPixel_blockRegs { pop s with blkPos := s.blkPos + 1#5 } d
    simp only [blockRegs, Prod.mk.injEq] at hregs
    obtain ⟨hblkRem, hblkPos, hblkCommon⟩ := hregs
    refine ⟨_, ps, px', hd ▸ hliteral hmode (by omega), hpx, ⟨hpushes.kept, hpushes.out, hpushes.load⟩,
      .literal (hblkCommon.trans hmode) hrest ?_⟩
    rw [hblkRem, hblkPos]
    show s.blkRem.toNat = _
    bv_omega
  | colour hmode hwhole hlen hpos =>
    refine ⟨_, [], _, step_next_ended (hfirst hmode hpos) hrem, rfl,
      .nothing rfl rfl rfl rfl, .colourHigh hmode hwhole hlen ?_ hd⟩
    show (s.blkPos + 1#5).toNat + 1 = s.blkRem.toNat
    bv_omega
  | @colourHigh n color hmode hwhole hlen hpos hlo =>
    rw [List.length_replicate, hwhole] at hload
    change _ ≤ _ + 0 at hload
    have hrun : min (s.blkRem.toNat / 2) (s.remaining.toNat / 2) = n := by omega
    have hstep := hsecond hmode hpos
    simp only [hrun, hlo, hd, hi_append_lo] at hstep
    refine ⟨_, List.replicate n color, [], hstep, (List.append_nil _).symm, ⟨rfl, ?_, ?_⟩, .closed ?_ hwhole⟩
    · rw [List.map_replicate]
      rfl
    · rw [consumed_remaining_toNat, List.length_replicate]
      show s.remaining.toNat - 2 * n + s.pxHalf.toNat + 2 * n = s.remaining.toNat + s.pxHalf.toNat
      omega
    · show s.blkRem.toNat ≤ (s.blkPos + 1#5).toNat
      bv_omega

/-- The first byte of a block opens it, and its content is due (R186, R187). -/
theorem step_blockHeader {b : RleBlock} {bs : List Byte} (hbytes : e.data :: bs = b.bytes) (hvalid : b.valid = true)
    (hrle : opcodeOf s.hdr ≠ s.params.opcBitblt) (hend : s.blkRem.toNat ≤ s.blkPos.toNat)
    (hwhole : s.pxHalf = false) :
    ∃ u, step s = .next (ended u) ∧ Pushes (pop s) [] u ∧ BlockDue u bs b.pixels := by
  obtain ⟨-, hheader⟩ := rleHeaderOpensItsBlock
  have hstep := hheader s e hready hfsm hsop hrle hrem hend
  simp only [RleBlock.valid, Bool.and_eq_true, decide_eq_true_eq] at hvalid
  obtain ⟨hpos, hle⟩ := hvalid
  refine ⟨_, step_next_ended hstep hrem, .nothing rfl rfl rfl rfl, ?_⟩
  cases b with
  | literal px =>
    obtain ⟨hdata, rfl⟩ := List.cons.inj hbytes
    change 1 ≤ px.length at hpos
    change px.length ≤ 8 at hle
    have hsize : e.data.toNat = px.length - 1 := by rw [hdata, BitVec.toNat_ofNat]; omega
    refine .literal (decide_eq_false (by omega)) ?_ ?_
    · show latched s ++ _ = _
      rw [latched, hwhole]
      rfl
    · show (BitVec.ofNat 5 _).toNat = (ite _ _ _ : BitVec 5).toNat + _
      rw [if_neg (by omega), hsize, pixelBytes_length, BitVec.toNat_ofNat]
      show _ = 0 + _
      omega
  | common n color =>
    obtain ⟨hdata, rfl⟩ := List.cons.inj hbytes
    simp only [RleBlock.pixels, List.length_replicate] at hpos hle
    have hsize : e.data.toNat = 128 + (n - 1) := by rw [hdata, BitVec.toNat_ofNat]; omega
    refine .colour (decide_eq_true (by omega)) hwhole ?_ ?_
    · show (BitVec.ofNat 5 _).toNat = _
      rw [hsize, BitVec.toNat_ofNat]
      omega
    · show (ite _ _ _ : BitVec 5).toNat + 2 = (BitVec.ofNat 5 _).toNat
      rw [if_pos (by omega), hsize, BitVec.toNat_ofNat, BitVec.toNat_ofNat]
      omega

end

/-! ## What is due of a payload (R112, R180, R196) -/

/-- The payload bytes due and the pixels still to push: of a BITBLT the bytes of its pixels, of a BITBLT_RLE what is due
of the open block and then whole blocks. -/
inductive Due (s : State) (bs : List Byte) (px : List Pixel) : Prop where
  | raw (hraw : opcodeOf s.hdr = s.params.opcBitblt) (hbytes : latched s ++ bs = pixelBytes px)
  | rle {cur : List Byte} {curPx : List Pixel} {blocks : List RleBlock}
      (hop : opcodeOf s.hdr = s.params.opcBitbltRle) (hrle : opcodeOf s.hdr ≠ s.params.opcBitblt)
      (hblock : BlockDue s cur curPx) (hvalid : ∀ b ∈ blocks, b.valid = true)
      (hbytes : bs = cur ++ blocks.flatMap RleBlock.bytes) (hpixels : px = curPx ++ blocks.flatMap RleBlock.pixels)

theorem Due.opcode {s : State} {bs : List Byte} {px : List Pixel} (h : Due s bs px) :
    opcodeOf s.hdr = s.params.opcBitblt ∨ opcodeOf s.hdr = s.params.opcBitbltRle := by
  cases h with
  | raw hraw => exact .inl hraw
  | rle hop => exact .inr hop

theorem RleBlock.bytes_ne_nil (b : RleBlock) : b.bytes ≠ [] := by
  cases b <;> exact List.cons_ne_nil _ _

theorem RleBlock.pixels_ne_nil {b : RleBlock} (h : b.valid = true) : b.pixels ≠ [] := by
  intro hnil
  simp [RleBlock.valid, hnil] at h

/-- Blocks that each give something give nothing together only if there are none. -/
theorem flatMap_eq_nil_iff_of_ne_nil {α : Type} {f : RleBlock → List α} {blocks : List RleBlock}
    (h : ∀ b ∈ blocks, f b ≠ []) : blocks.flatMap f = [] ↔ blocks = [] := by
  rw [List.flatMap_eq_nil_iff, List.eq_nil_iff_forall_not_mem]
  exact forall₂_congr fun b hb => iff_of_false (h b hb) not_false

theorem Due.nil_iff {s : State} {bs : List Byte} {px : List Pixel} (h : Due s bs px) : bs = [] ↔ px = [] := by
  cases h with
  | raw hraw hbytes => exact latched_append_nil_iff hbytes
  | @rle cur curPx blocks hop hrle hblock hvalid hbytes hpixels =>
    have hbytesNil := flatMap_eq_nil_iff_of_ne_nil (f := RleBlock.bytes) fun b (_ : b ∈ blocks) => b.bytes_ne_nil
    have hpixelsNil := flatMap_eq_nil_iff_of_ne_nil fun b hb => RleBlock.pixels_ne_nil (hvalid b hb)
    rw [hbytes, hpixels, List.append_eq_nil_iff, List.append_eq_nil_iff, hblock.nil_iff, hbytesNil, hpixelsNil]

/-- What is due does not depend on the ring buffer. -/
theorem BlockDue.popped {s : State} {bs : List Byte} {px : List Pixel} (h : BlockDue s bs px) :
    BlockDue s.popped bs px := by
  cases h with
  | closed hend hwhole => exact .closed hend hwhole
  | literal hmode hbytes hopen => exact .literal hmode hbytes hopen
  | colour hmode hwhole hlen hpos => exact .colour hmode hwhole hlen hpos
  | colourHigh hmode hwhole hlen hpos hlo => exact .colourHigh hmode hwhole hlen hpos hlo

theorem Due.popped {s : State} {bs : List Byte} {px : List Pixel} (h : Due s bs px) : Due s.popped bs px := by
  cases h with
  | raw hraw hbytes => exact .raw hraw hbytes
  | rle hop hrle hblock hvalid hbytes hpixels => exact .rle hop hrle hblock.popped hvalid hbytes hpixels

/-- A payload byte leaves the BitBlt that is running (R23). -/
theorem Pushes.rle {s u : State} {ps : List Pixel} (h : Pushes s ps u)
    (hop : opcodeOf s.hdr = s.params.opcBitbltRle) (hrle : opcodeOf s.hdr ≠ s.params.opcBitblt) :
    opcodeOf u.hdr = u.params.opcBitbltRle ∧ opcodeOf u.hdr ≠ u.params.opcBitblt := by
  obtain ⟨-, ⟨hhdr, -⟩, hparams, -⟩ := streamRegs_eq_iff.1 h.kept
  rw [hhdr, hparams]
  exact ⟨hop, hrle⟩

section

variable {s : State} {e : FifoEntry} {bs : List Byte} {px : List Pixel} (hready : Ready s e)
  (hfsm : s.fsm = .payload) (hsop : e.sop = false) (hrem : s.remaining ≠ 0#33)

include hready hfsm hsop hrem

/-- At a block boundary the byte due opens the first of the blocks to come (R185, R186). -/
theorem Due.step_boundary {blocks : List RleBlock} (hop : opcodeOf s.hdr = s.params.opcBitbltRle)
    (hrle : opcodeOf s.hdr ≠ s.params.opcBitblt) (hend : s.blkRem.toNat ≤ s.blkPos.toNat) (hwhole : s.pxHalf = false)
    (hvalid : ∀ b ∈ blocks, b.valid = true) (hbytes : e.data :: bs = blocks.flatMap RleBlock.bytes) :
    ∃ u, step s = .next (ended u) ∧ Pushes (pop s) [] u ∧ Due u bs (blocks.flatMap RleBlock.pixels) := by
  obtain _ | ⟨b, blocks⟩ := blocks
  · cases hbytes
  obtain ⟨hb, hvalid⟩ := List.forall_mem_cons.1 hvalid
  obtain ⟨header, content, hcontent⟩ := List.exists_cons_of_ne_nil b.bytes_ne_nil
  rw [List.flatMap_cons, hcontent, List.cons_append] at hbytes
  obtain ⟨rfl, rfl⟩ := List.cons.inj hbytes
  obtain ⟨u, hstep, hpushes, hblock⟩ := step_blockHeader hready hfsm hsop hrem hcontent.symm hb hrle hend hwhole
  obtain ⟨hop, hrle⟩ := hpushes.rle hop hrle
  exact ⟨u, hstep, hpushes, .rle hop hrle hblock hvalid rfl rfl⟩

/-- A payload byte that is due pushes the first of the pixels, and the other bytes stay due. -/
theorem Due.step (h : Due s (e.data :: bs) px) (hload : 2 * px.length ≤ s.remaining.toNat + s.pxHalf.toNat) :
    ∃ u ps px', step s = .next (ended u) ∧ px = ps ++ px' ∧ Pushes (pop s) ps u ∧ Due u bs px' := by
  cases h with
  | raw hraw hbytes =>
    obtain ⟨ps, px', hpx, hpushes, hrest⟩ := halfPixel_pushes (s := pop s) hrem hbytes
    obtain ⟨-, ⟨hhdr, -⟩, hparams, -⟩ := streamRegs_eq_iff.1 hpushes.kept
    refine ⟨_, ps, px', rawByteIsHalfAPixel s e hready hfsm hsop hraw hrem, hpx, hpushes, .raw ?_ hrest⟩
    rw [hhdr, hparams]
    exact hraw
  | @rle cur curPx blocks hop hrle hblock hvalid hbytes hpixels =>
    obtain _ | ⟨d, cur⟩ := cur
    · obtain rfl := hblock.nil_iff.1 rfl
      obtain ⟨hend, hwhole⟩ := hblock.boundary
      obtain ⟨u, hstep, hpushes, hdue⟩ :=
        Due.step_boundary hready hfsm hsop hrem hop hrle hend hwhole hvalid hbytes
      exact ⟨u, [], _, hstep, hpixels, hpushes, hdue⟩
    · obtain ⟨rfl, rfl⟩ := List.cons.inj hbytes
      have hcur : 2 * curPx.length ≤ s.remaining.toNat + s.pxHalf.toNat := by
        rw [hpixels, List.length_append] at hload
        omega
      obtain ⟨u, ps, px', hstep, rfl, hpushes, hblock⟩ := BlockDue.step hready hfsm hsop hrem hblock hrle hcur
      obtain ⟨hop, hrle⟩ := hpushes.rle hop hrle
      exact ⟨u, ps, _, hstep, hpixels.trans (List.append_assoc ..), hpushes, .rle hop hrle hblock hvalid rfl rfl⟩

end

/-! ## The entries of a payload (R112, R113) -/

theorem payloadOf_cons_start {e : FifoEntry} (es : List FifoEntry) (h : e.sop = true) :
    payloadOf (e :: es) = payloadOf es := by
  simp [payloadOf, h]

theorem payloadOf_cons_byte {e : FifoEntry} (es : List FifoEntry) (h : e.sop = false) :
    payloadOf (e :: es) = e.data :: payloadOf es := by
  simp [payloadOf, h]

/-- An entry that begins a packet continues the BitBlt, and it is not the last. -/
theorem wellPacketed_cons {p : Config.Params} {hdr : Byte} {e : FifoEntry} {es : List FifoEntry}
    (h : wellPacketed p (opcodeOf hdr) (e :: es) = true) :
    (e.sop = true → Continues p e.data hdr ∧ es ≠ []) ∧ wellPacketed p (opcodeOf hdr) es = true := by
  simp only [wellPacketed, List.all_cons, Bool.and_eq_true] at h ⊢
  obtain ⟨⟨hhead, hall⟩, hlast⟩ := h
  refine ⟨fun hsop => ⟨?_, ?_⟩, hall, ?_⟩
  · simpa [hsop, Continues, opcodeOf] using hhead
  · rintro rfl
    simp [hsop] at hlast
  · cases es with
    | nil => rfl
    | cons e' es => exact hlast

/-- The last entry of a payload is a payload byte. -/
theorem payloadOf_ne_nil {p : Config.Params} {op : BitVec 6} {es : List FifoEntry}
    (h : wellPacketed p op es = true) (hne : es ≠ []) : payloadOf es ≠ [] := by
  have hlast : (es.getLast hne).sop = false := by
    simpa [wellPacketed, List.getLast?_eq_getLast_of_ne_nil hne] using (Bool.and_eq_true_iff.1 h).2
  rw [payloadOf, Ne, List.map_eq_nil_iff, List.filter_eq_nil_iff]
  exact fun hall => hall _ (List.getLast_mem hne) (by rw [hlast]; rfl)

/-- The head entry, and what a pop leaves, where the entries are known (R74, R75). -/
theorem fifoHead?_of_contents {s : State} {o : Option FifoEntry} {q : List (Option FifoEntry)}
    (h : s.fifoContents = o :: q) : s.fifoHead? = o ∧ (pop s).fifoContents = q := by
  have hcount : s.fifoCount ≠ 0#16 := by
    intro hzero
    have hlen := fifoContents_length s
    rw [h, hzero] at hlen
    cases hlen
  rw [fifoContents_eq_cons hcount] at h
  exact List.cons.inj h

/-! ## A whole payload (R154, R182, R196, R197) -/

/-- The Engine alone moves, in PAYLOAD, with the bytes `bs` due; the load is that of the pixels `px` still to push. -/
structure Streaming (s : State) (bs : List Byte) (px : List Pixel) : Prop where
  sched : s.sched = []
  booted : s.bootPending = false
  fsm : s.fsm = .payload
  load : s.remaining.toNat + s.pxHalf.toNat = 2 * px.length
  due : Due s bs px

/-- `u` is `s` after the BitBlt has pushed the pixels `px` and completed, with `rest` left in the ring buffer. -/
structure Finished (s : State) (px : List Pixel) (rest : List (Option FifoEntry)) (u : State) : Prop where
  out : u.out = s.out ++ px.map .pushPixel ++ [.statusOut (statusOf (s.dirty && !clearDirty s.hdr))]
  fsm : u.fsm = .scan
  remaining : u.remaining = 0#33
  pxHalf : u.pxHalf = false
  dirty : u.dirty = (s.dirty && !clearDirty s.hdr)
  contents : u.fifoContents = rest

theorem Streaming.popped {s : State} {bs : List Byte} {px : List Pixel} (h : Streaming s bs px) :
    Streaming (pop s) bs px :=
  ⟨h.sched, h.booted, h.fsm, h.load, h.due.popped⟩

/-- While bytes are due something of the load is left, and no longer (R153, R192). -/
theorem Streaming.load_eq_zero_iff {s : State} {bs : List Byte} {px : List Pixel} (h : Streaming s bs px) :
    s.remaining = 0#33 ↔ bs = [] := by
  have hload := h.load
  have hhalf := s.pxHalf.toNat_le
  rw [h.due.nil_iff, ← List.length_eq_zero_iff, ← BitVec.toNat_inj]
  show s.remaining.toNat = 0 ↔ _
  omega

theorem Streaming.pushes {s u : State} {bs bs' : List Byte} {ps px : List Pixel} (h : Streaming s bs (ps ++ px))
    (hpushes : Pushes s ps u) (hdue : Due u bs' px) : Streaming u bs' px := by
  obtain ⟨hfsm, ⟨-, hbooted⟩, -, hsched, -⟩ := streamRegs_eq_iff.1 hpushes.kept
  refine ⟨hsched.trans h.sched, hbooted.trans h.booted, hfsm.trans h.fsm, ?_, hdue⟩
  have hload := h.load
  have hpushed := hpushes.load
  rw [List.length_append] at hload
  omega

/-- With no byte due any more the step completes the command (R154, R258). -/
theorem Streaming.finished {s : State} {px : List Pixel} {rest : List (Option FifoEntry)} (h : Streaming s [] px)
    (hrest : s.fifoContents = rest) : Finished s px rest (ended s) := by
  have hzero := h.load_eq_zero_iff.2 rfl
  have hload := h.load
  obtain rfl := h.due.nil_iff.1 rfl
  rw [hzero] at hload
  rw [ended_of_unloaded hzero]
  exact ⟨rfl, rfl, hzero, Bool.toNat_eq_zero.1 ((Nat.zero_add _).symm.trans hload), rfl, hrest⟩

theorem Finished.of_pushes {s t u : State} {ps px : List Pixel} {rest : List (Option FifoEntry)}
    (h : Finished t px rest u) (hpushes : Pushes (pop s) ps t) : Finished s (ps ++ px) rest u := by
  obtain ⟨-, ⟨hhdr, -⟩, -, -, hdirty, -⟩ := streamRegs_eq_iff.1 hpushes.kept
  have hout := h.out
  rw [hhdr, hdirty, hpushes.out, List.append_assoc (pop s).out, ← List.map_append] at hout
  exact ⟨hout, h.fsm, h.remaining, h.pxHalf, hhdr ▸ hdirty ▸ h.dirty, h.contents⟩

/-- One step for each entry of a payload pushes its pixels, in order, and completes on the last byte. -/
theorem Streaming.run {es : List FifoEntry} {rest : List (Option FifoEntry)} {s : State} {px : List Pixel}
    (h : Streaming s (payloadOf es) px) (hpacketed : wellPacketed s.params (opcodeOf s.hdr) es = true)
    (hfifo : s.fifoContents = es.map some ++ rest) (hne : es ≠ []) :
    ∃ u, Host.Core.run Sys2Proof.core es.length s = .next u ∧ Finished s px rest u := by
  induction es generalizing s px with
  | nil => exact absurd rfl hne
  | cons e es ih =>
    obtain ⟨hhead, htail⟩ := fifoHead?_of_contents hfifo
    have hready : Ready s e := ⟨h.sched, h.booted, hhead⟩
    obtain ⟨hstart, hpacketed⟩ := wellPacketed_cons hpacketed
    cases hsop : e.sop with
    | true =>
      rw [payloadOf_cons_start es hsop] at h
      obtain ⟨hcont, hmore⟩ := hstart hsop
      have hstep := hready.step_continues h.fsm hsop h.due.opcode hcont
      obtain ⟨u, hrun, hu⟩ := ih h.popped hpacketed htail hmore
      exact ⟨u, (run_succ hstep).trans hrun, hu.of_pushes (.nothing rfl rfl rfl rfl)⟩
    | false =>
      have hrem : s.remaining ≠ 0#33 := mt h.load_eq_zero_iff.1 (payloadOf_cons_byte es hsop ▸ List.cons_ne_nil _ _)
      rw [payloadOf_cons_byte es hsop] at h
      obtain ⟨t, ps, px', hstep, rfl, hpushes, hdue⟩ := Due.step hready h.fsm hsop hrem h.due h.load.ge
      have ht := h.popped.pushes hpushes hdue
      obtain ⟨-, ⟨hhdr, -⟩, hparams, -, -, hring⟩ := streamRegs_eq_iff.1 hpushes.kept
      have hcontents := (fifoContents_of_ring_eq hring).trans htail
      by_cases hlast : es = []
      · subst hlast
        exact ⟨ended t, run_succ hstep, (ht.finished hcontents).of_pushes hpushes⟩
      · have hmore : t.remaining ≠ 0#33 := mt ht.load_eq_zero_iff.1 (payloadOf_ne_nil hpacketed hlast)
        rw [ended_of_loaded hmore] at hstep
        obtain ⟨u, hrun, hu⟩ := ih ht (by rw [hhdr, hparams]; exact hpacketed) hcontents hlast
        exact ⟨u, (run_succ hstep).trans hrun, hu.of_pushes hpushes⟩

/-! ## The two BitBlts (R182, R196, R250, R252, R253) -/

/-- A BitBlt with pixels at the end of its fixed header: the window is opened and the whole payload is due. -/
def opened (s : State) (frame : List Byte) (x y w h : Coord) : State :=
  { s.popped.latchFrame frame with
    remaining := BitVec.ofNat 33 (area w h * 2)
    blkRem := 0#5
    blkPos := 0#5
    pxHalf := false
    out := s.out ++ [.setWindow x y w h]
    fsm := .payload }

theorem bitBltStart_eq_opened {s : State} {hdr : Byte} {as : List Byte} {x y w h : Coord} (harea : area w h ≠ 0) :
    (s.popped.latchFrame (hdr :: as)).bitBltStart x y w h = opened s (hdr :: as) x y w h := by
  rcases State.bitBltStart_cases (s.popped.latchFrame (hdr :: as)) x y w h with ⟨hzero, -⟩ | ⟨-, heq⟩
  · have hload := load_toNat w h
    rw [hzero] at hload
    change 0 = _ at hload
    omega
  · exact heq

section

variable {s : State} {e : FifoEntry} {es : List FifoEntry} {rest : List (Option FifoEntry)} {px : List Pixel}
  {clear : Bool} {op : BitVec 6} {as : List Byte} {x y w h : Coord}

/-- A BitBlt whose payload is the entries after its fixed header pushes the payload's pixels and completes. -/
theorem run_opened (hsched : s.sched = []) (hb : s.bootPending = false)
    (hfifo : s.fifoContents = some e :: (es.map some ++ rest)) (hpx : px ≠ []) (hlen : px.length = area w h)
    (hpacketed : wellPacketed s.params op es = true)
    (hdue : Due (opened s (mkHeader true clear op :: as) x y w h) (payloadOf es) px) :
    ∃ u, Host.Core.run Sys2Proof.core es.length
        ((s.popped.latchFrame (mkHeader true clear op :: as)).bitBltStart x y w h) = .next u ∧
      u.out = s.out ++ [.setWindow x y w h] ++ px.map .pushPixel ++ [.statusOut (statusOf (s.dirty && !clear))] ∧
      u.fsm = .scan ∧ u.remaining = 0#33 ∧ u.pxHalf = false ∧ u.dirty = (s.dirty && !clear) ∧
      u.fifoContents = rest := by
  have hpos : 0 < px.length := List.length_pos_iff.2 hpx
  rw [bitBltStart_eq_opened (by omega)]
  have hstreaming : Streaming (opened s (mkHeader true clear op :: as) x y w h) (payloadOf es) px := by
    refine ⟨hsched, hb, rfl, ?_, hdue⟩
    show (BitVec.ofNat 33 (area w h * 2)).toNat + 0 = _
    rw [load_toNat, hlen]
    omega
  have hopcode : wellPacketed s.params (opcodeOf (mkHeader true clear op)) es = true := by
    rw [opcodeOf_mkHeader]
    exact hpacketed
  have hne : es ≠ [] := by
    rintro rfl
    exact hpx (hdue.nil_iff.1 rfl)
  obtain ⟨u, hrun, hu⟩ := hstreaming.run hopcode (fifoHead?_of_contents hfifo).2 hne
  have hclear : clearDirty (opened s (mkHeader true clear op :: as) x y w h).hdr = clear := clearDirty_mkHeader ..
  have hout := hu.out
  have hdirty := hu.dirty
  rw [hclear] at hout hdirty
  exact ⟨u, hrun, hout, hu.fsm, hu.remaining, hu.pxHalf, hdirty, hu.contents⟩

end

/-- Settles O47: the whole payload is the bytes of the pixels, none of them latched. -/
theorem rawPayloadPushesItsPixels : Obligations.RawPayloadPushesItsPixels := by
  intro clear x y w h px es rest s e hsched hb hfifo hpx hlen hpayload hpacketed
  obtain ⟨hhead, -⟩ := fifoHead?_of_contents hfifo
  obtain ⟨u, hrun, hu⟩ := run_opened hsched hb hfifo hpx hlen hpacketed
    (.raw (opcodeOf_mkHeader true clear s.params.opcBitblt) hpayload)
  exact ⟨_, u, exec_bitblt clear x y w h hhead, hrun, hu⟩

/-- Settles O46: the whole payload is whole blocks, and the decoder begins at a block boundary. -/
theorem rlePayloadPushesItsPixels : Obligations.RlePayloadPushesItsPixels := by
  intro clear x y w h blocks es rest s e hsched hb hvalid hfifo hne hblocks hsum hpayload hpacketed
  obtain ⟨hhead, -⟩ := fifoHead?_of_contents hfifo
  have hblocks : ∀ b ∈ blocks, b.valid = true := List.all_eq_true.1 hblocks
  have hpx : blocks.flatMap RleBlock.pixels ≠ [] :=
    mt (flatMap_eq_nil_iff_of_ne_nil fun b hmem => RleBlock.pixels_ne_nil (hblocks b hmem)).1 hne
  have hlen : (blocks.flatMap RleBlock.pixels).length = area w h := List.length_flatMap.trans hsum
  have hop := opcodeOf_mkHeader true clear s.params.opcBitbltRle
  obtain ⟨u, hrun, hout, hfsm, hrem, -, hdirty, hcontents⟩ := run_opened hsched hb hfifo hpx hlen hpacketed
    (.rle hop (hop.trans_ne (opcBitblt_ne_opcBitbltRle hvalid).symm) (.closed le_rfl rfl) hblocks hpayload rfl)
  exact ⟨_, u, exec_bitbltRle clear x y w h hhead, hrun, hout, hfsm, hrem, hdirty, hcontents⟩

end Sys2Proof.Safety

/-! # The commands (43_commands.md)

Proofs of the statements on R241 to R248, R250, R252 and R258: what each of the six commands leaves at the last byte of
its fixed header, and what a copy does to the sink it is issued to. -/

namespace Sys2Proof.Machine

/-! ## The frame registers at the last byte of a command (R24, R143, R147) -/

/-- An argument register holds the frame's byte if the frame has one for it, else its old value. -/
theorem loadArgs_eq_iff {v u : Vector Byte 12} {as : List Byte} :
    loadArgs v as = u ↔ ∀ i : Fin 12, (as[i.val]?).getD v[i] = u[i] := by
  constructor
  · rintro rfl i
    simp [loadArgs]
  · intro hall
    refine Vector.ext fun i hi => ?_
    rw [loadArgs, Vector.getElem_ofFn]
    exact hall ⟨i, hi⟩

theorem exec_fill {s : State} {e : FifoEntry} (clear : Bool) (color : Pixel) (hhead : s.fifoHead? = some e) :
    exec (.fill clear color) s = .next
      ((s.popped.latchFrame (encode s.params (.fill clear color))).emit (.fillScreen color)).complete :=
  show execFill clear color s = _ from withPop_some hhead

theorem exec_rect {s : State} {e : FifoEntry} (clear : Bool) (l t r b : Coord) (color : Pixel)
    (hhead : s.fifoHead? = some e) :
    exec (.rect clear l t r b color) s = .next
      ((s.popped.latchFrame (encode s.params (.rect clear l t r b color))).fillRect l t r b color).complete :=
  show execRect clear l t r b color s = _ from withPop_some hhead

theorem exec_copyArea {s : State} {e : FifoEntry} (clear : Bool) (sx sy dx dy w h : Coord)
    (hhead : s.fifoHead? = some e) :
    exec (.copyArea clear sx sy dx dy w h) s = .next
      ((s.popped.latchFrame (encode s.params (.copyArea clear sx sy dx dy w h))).copyAreaWith Config.copyBufPixels
        s.popped.sinkAnswer sx sy dx dy w h).complete :=
  show execCopyArea clear sx sy dx dy w h s = _ from withPop_some hhead

/-- A rectangle fill issues one transaction or none (R243, R244). -/
theorem State.fillRect_eq_emits (s : State) (l t r b : Coord) (c : Pixel) : s.fillRect l t r b c =
    s.emits (if l.toNat < r.toNat ∧ t.toNat < b.toNat then [.fillRect l t r b c] else []) := by
  rw [State.fillRect_eq]
  simp only [BitVec.lt_def]
  split
  · rfl
  · rw [State.emits, List.append_nil]

/-- The load is 0 exactly for a rectangle without pixels, since it does not wrap (R250). -/
theorem load_eq_zero_iff {w h : Coord} : BitVec.ofNat 33 (area w h * 2) = 0#33 ↔ area w h = 0 := by
  rw [BitVec.toNat_eq, load_toNat]
  simp

end Sys2Proof.Machine

namespace Sys2Proof.Safety

open Sys2Proof.Machine

theorem fieldBytes_eq (v : BitVec 16) : fieldBytes v = [lo v, hi v] := by
  rw [fieldBytes, lo_eq_loByte, hi_eq_hiByte]

/-- A whole frame is received at the pop of its last byte (R240). -/
theorem latchFrame_eq_received {s : State} {as : List Byte} {args : Vector Byte 12} (op : BitVec 6) (clear : Bool)
    (hargs : loadArgs s.args as = args) : s.popped.latchFrame (mkHeader true clear op :: as) =
      received s (headerByte op clear) args (BitVec.ofNat 4 as.length) := by
  rw [← hargs, headerByte_eq_mkHeader]
  rfl

/-! ## Completion of a command (R258) -/

theorem completed_emits (s : State) (clear : Bool) (ts : List Transaction) :
    completed (s.emits ts) clear [] = completed s clear ts := by
  simp [completed, State.emits]

/-- A command that has issued `ts` completes by the CLEAR_DIRTY bit of its header byte. -/
theorem complete_emits {s : State} {op : BitVec 6} {clear : Bool} (hhdr : s.hdr = headerByte op clear)
    (ts : List Transaction) : (s.emits ts).complete = completed s clear ts := by
  rw [complete_eq_completed, completed_emits, State.emits_hdr, hhdr, headerByte_eq_mkHeader, clearDirty_mkHeader]

theorem complete_of_header {s : State} {op : BitVec 6} {clear : Bool} (hhdr : s.hdr = headerByte op clear) :
    s.complete = completed s clear [] := by
  rw [complete_eq_completed, hhdr, headerByte_eq_mkHeader, clearDirty_mkHeader]

/-! ## NOP, FILL and RECT (R241 to R244) -/

/-- Settles O7: the frame is its header byte alone, and NOP_REPORTS decides whether it completes. -/
theorem nopTakesItsHeaderByteOnly : Obligations.NopTakesItsHeaderByteOnly := by
  intro clear s e hhead
  rw [exec_nop clear hhead, latchFrame_eq_received _ _ (loadArgs_nil s.args), nopWith]
  split
  · rw [complete_of_header rfl]
    rfl
  · rfl

theorem loadArgs_fill (v : Vector Byte 12) (c : Pixel) :
    loadArgs v (fieldBytes c) = (v.set 0 (lo c)).set 1 (hi c) := by
  rw [fieldBytes_eq, loadArgs_eq_iff]
  intro i
  rw [Fin.getElem_fin, Fin.getElem_fin, Vector.getElem_set, Vector.getElem_set]
  fin_cases i <;> rfl

/-- Settles O8: one `FillScreen`, then the completion. -/
theorem fillPaintsThePanelAndCompletes : Obligations.FillPaintsThePanelAndCompletes := by
  intro clear color s e hhead
  rw [exec_fill clear color hhead, encode, latchFrame_eq_received _ _ (loadArgs_fill s.args color)]
  exact congrArg _ (complete_emits rfl [.fillScreen color])

theorem loadArgs_rect (v : Vector Byte 12) (l t r b : Coord) (c : Pixel) :
    loadArgs v (fieldBytes l ++ fieldBytes t ++ fieldBytes r ++ fieldBytes b ++ fieldBytes c) =
      #v[lo l, hi l, lo t, hi t, lo r, hi r, lo b, hi b, lo c, hi c, v[10], v[11]] := by
  simp only [fieldBytes_eq]
  exact loadArgs_eq_iff.2 fun i => by fin_cases i <;> rfl

/-- Settles O9: a rectangle fill issues one transaction or none, and the command completes after either. -/
theorem rectPaintsItsHalfOpenRectangle : Obligations.RectPaintsItsHalfOpenRectangle := by
  intro clear l t r b color s e hhead
  rw [exec_rect clear l t r b color hhead, encode, latchFrame_eq_received _ _ (loadArgs_rect s.args l t r b color),
    State.fillRect_eq_emits, complete_emits rfl]
  rfl

/-! ## COPY_AREA (R245 to R247) -/

theorem copyOom_eq_emits (s : State) (w h : Coord) :
    s.copyOom w h = s.emits [.diag 0x05#8 [lo w, hi w, lo h, hi h]] := by
  simp only [lo_eq_loByte, hi_eq_hiByte]
  rfl

/-- Settles O11: by the three cases of the handler, which exclude each other. -/
theorem copyAreaCasesByBufferSize : Obligations.CopyAreaCasesByBufferSize := by
  intro s cap answer sx sy dx dy w h hlen n
  have harea : area w h = n := rfl
  rcases s.copyAreaWith_cases cap answer sx sy dx dy w h with
    ⟨hzero, heq⟩ | ⟨hpos, hover, heq⟩ | ⟨hpos, hfits, heq⟩
  · exact ⟨fun _ => heq, fun _ => by omega, fun _ => by omega⟩
  · exact ⟨fun _ => by omega, fun _ => heq.trans (copyOom_eq_emits s w h), fun _ _ => by omega⟩
  · exact ⟨fun _ => by omega, fun _ => by omega, fun _ _ => heq.trans (s.copyRect_eq sx sy dx dy w h hlen)⟩

theorem loadArgs_copyArea (v : Vector Byte 12) (sx sy dx dy w h : Coord) :
    loadArgs v (fieldBytes sx ++ fieldBytes sy ++ fieldBytes dx ++ fieldBytes dy ++ fieldBytes w ++ fieldBytes h) =
      #v[lo sx, hi sx, lo sy, hi sy, lo dx, hi dx, lo dy, hi dy, lo w, hi w, lo h, hi h] := by
  simp only [fieldBytes_eq]
  exact loadArgs_eq_iff.2 fun i => by fin_cases i <;> rfl

/-- Settles O10: the three cases of the copy, with the sink's free answer, each followed by the completion. -/
theorem copyAreaReadsAllThenWritesAll : Obligations.CopyAreaReadsAllThenWritesAll := by
  intro clear sx sy dx dy w h s e hhead n px r
  obtain ⟨hzero, hover, hfits⟩ := copyAreaCasesByBufferSize r Config.copyBufPixels s.popped.sinkAnswer
    sx sy dx dy w h (State.sinkAnswer_length ..)
  rw [exec_copyArea clear sx sy dx dy w h hhead, encode,
    latchFrame_eq_received _ _ (loadArgs_copyArea s.args sx sy dx dy w h)]
  congr 1
  split_ifs with hn hcap
  · exact (congrArg State.complete (hzero hn)).trans (complete_of_header rfl)
  · exact (congrArg State.complete (hover hcap)).trans (complete_emits rfl _)
  · exact (congrArg State.complete (hfits (Nat.pos_of_ne_zero hn) (Nat.not_lt.1 hcap))).trans
      (complete_emits (s := { r with copybuf := px ++ s.copybuf.drop n, freeIx := s.freeIx + n }) rfl _)

/-! ## The start of a BitBlt (R250, R252) -/

/-- The state in which a BitBlt either completes at once or opens its window. -/
def loaded (s : State) (w h : Coord) : State :=
  { s with remaining := BitVec.ofNat 33 (area w h * 2), blkRem := 0#5, blkPos := 0#5, pxHalf := false }

theorem bitBltStart_of_header {s : State} {op : BitVec 6} {clear : Bool} (hhdr : s.hdr = headerByte op clear)
    (x y w h : Coord) : s.bitBltStart x y w h =
      if area w h = 0 then completed (loaded s w h) clear []
      else { loaded s w h with out := s.out ++ [.setWindow x y w h], fsm := .payload } := by
  rcases s.bitBltStart_cases x y w h with ⟨hload, heq⟩ | ⟨hload, heq⟩
  · rw [if_pos (load_eq_zero_iff.1 hload), heq, ← hload]
    exact complete_of_header (s := loaded s w h) hhdr
  · rw [if_neg (mt load_eq_zero_iff.2 hload), heq]
    rfl

theorem loadArgs_bitBlt (v : Vector Byte 12) (x y w h : Coord) :
    loadArgs v (fieldBytes x ++ fieldBytes y ++ fieldBytes w ++ fieldBytes h) =
      #v[lo x, hi x, lo y, hi y, lo w, hi w, lo h, hi h, v[8], v[9], v[10], v[11]] := by
  simp only [fieldBytes_eq]
  exact loadArgs_eq_iff.2 fun i => by fin_cases i <;> rfl

/-- Settles O12: both opcodes start alike once their fixed header is received. -/
theorem bitBltStartsOrCompletesAtOnce : Obligations.BitBltStartsOrCompletesAtOnce := by
  intro clear x y w h s e hhead started
  have hstart (op : BitVec 6) :
      (s.popped.latchFrame (mkHeader true clear op ::
        (fieldBytes x ++ fieldBytes y ++ fieldBytes w ++ fieldBytes h))).bitBltStart x y w h = started op := by
    rw [latchFrame_eq_received _ _ (loadArgs_bitBlt s.args x y w h), bitBltStart_of_header rfl]
    rfl
  exact ⟨(exec_bitblt clear x y w h hhead).trans (congrArg _ (hstart _)),
    (exec_bitbltRle clear x y w h hhead).trans (congrArg _ (hstart _))⟩

end Sys2Proof.Safety

namespace Sys2Proof.Machine

/-! ## What a copy does to the sink (R214 to R217, R246, R248) -/

/-- The place `(x, y)` lies in the window (R214). -/
abbrev Window.Holds (win : Window) (x y : Nat) : Prop :=
  win.x ≤ x ∧ x < win.x + win.width ∧ win.y ≤ y ∧ y < win.y + win.height

/-- The number of pushes before the one that reaches a place of the window, row by row (R217). -/
def Window.index (win : Window) (x y : Nat) : Nat := (y - win.y) * win.width + (x - win.x)

section

variable {win : Window} {x y : Nat}

theorem Window.Holds.index_mod (h : win.Holds x y) : win.index x y % win.width = x - win.x := by
  obtain ⟨hx, hxw, -⟩ := h
  rw [Window.index, Nat.mul_add_mod', Nat.mod_eq_of_lt (by omega)]

theorem Window.Holds.index_div (h : win.Holds x y) : win.index x y / win.width = y - win.y := by
  obtain ⟨hx, hxw, -⟩ := h
  rw [Window.index, Nat.add_comm, Nat.add_mul_div_right _ _ (by omega), Nat.div_eq_of_lt (by omega), Nat.zero_add]

theorem Window.Holds.index_lt (h : win.Holds x y) : win.index x y < win.width * win.height := by
  have ⟨hx, hxw, _⟩ := h
  rw [Nat.mul_comm, ← Nat.div_lt_iff_lt_mul (by omega), h.index_div]
  omega

/-- The cursor stands at exactly the place whose index it is (R217). -/
theorem Window.cursor_at_iff {n : Nat} (hn : n < win.width * win.height) :
    (x = win.x + n % win.width ∧ y = win.y + n / win.width) ↔ win.Holds x y ∧ win.index x y = n := by
  constructor
  · rintro ⟨rfl, rfl⟩
    have hmod : n % win.width < win.width := Nat.mod_lt _ (Nat.pos_of_mul_pos_right (Nat.zero_lt_of_lt hn))
    have hdiv : n / win.width < win.height := Nat.div_lt_of_lt_mul hn
    have hcolumn : win.x + n % win.width < win.x + win.width := Nat.add_lt_add_left hmod _
    have hrow : win.y + n / win.width < win.y + win.height := Nat.add_lt_add_left hdiv _
    refine ⟨⟨Nat.le_add_right .., hcolumn, Nat.le_add_right .., hrow⟩, ?_⟩
    rw [Window.index, Nat.add_sub_cancel_left, Nat.add_sub_cancel_left, Nat.div_add_mod']
  · rintro ⟨h, rfl⟩
    rw [h.index_mod, h.index_div]
    omega

end

/-- The window `SetWindow` opens (R214). -/
def Window.ofRect (x y w h : Coord) : Window := ⟨x.toNat, y.toNat, w.toNat, h.toNat⟩

/-- `m` with `win` opened and its first `n` places pushed, the `k`-th with `src k`. -/
def Sink.painted (m : Sink) (win : Window) (src : Nat → Pixel) (n : Nat) : Sink where
  pixels x y := if win.Holds x y ∧ win.index x y < n then src (win.index x y) else m.pixels x y
  window := some win
  cursor := n

/-- An opened window has none of its places painted. -/
theorem Sink.apply_setWindow (m : Sink) (src : Nat → Pixel) (x y w h : Coord) :
    m.apply (.setWindow x y w h) = m.painted (.ofRect x y w h) src 0 := by
  simp [Sink.apply, Sink.painted, Window.ofRect]

theorem Sink.applyAll_append (m : Sink) (ts us : List Transaction) :
    m.applyAll (ts ++ us) = (m.applyAll ts).applyAll us :=
  List.foldl_append

/-- A push paints the place of the cursor and no other (R215, R217). -/
theorem Sink.painted_push (m : Sink) {win : Window} (src : Nat → Pixel) {n : Nat}
    (hn : n < win.width * win.height) :
    (m.painted win src n).apply (.pushPixel (src n)) = m.painted win src (n + 1) := by
  simp only [Sink.apply, Sink.painted, if_pos hn, Window.cursor_at_iff hn, Sink.mk.injEq, and_true]
  funext x y
  by_cases hcursor : win.Holds x y ∧ win.index x y = n
  · obtain ⟨hin, rfl⟩ := hcursor
    rw [if_pos ⟨hin, rfl⟩, if_pos ⟨hin, Nat.lt_succ_self _⟩]
  · rw [if_neg hcursor]
    refine if_congr (and_congr_right fun hin => ?_) rfl rfl
    have hne : win.index x y ≠ n := fun heq => hcursor ⟨hin, heq⟩
    omega

/-- As many pushes as the window has places, or fewer, paint its places in order (R217). -/
theorem Sink.painted_pushes (m : Sink) {win : Window} (src : Nat → Pixel) {n : Nat}
    (hn : n ≤ win.width * win.height) :
    (m.painted win src 0).applyAll (((List.range n).map src).map .pushPixel) = m.painted win src n := by
  induction n with
  | zero => rfl
  | succ n ih =>
    rw [List.range_succ, List.map_append, List.map_append, Sink.applyAll_append, ih (Nat.le_of_lt hn)]
    exact m.painted_push src hn

/-- The `k`-th pixel a read of `w` columns from `(x, y)` answers (R216). -/
def Sink.rowMajor (m : Sink) (x y w : Coord) (k : Nat) : Pixel :=
  m.pixels (x.toNat + k % w.toNat) (y.toNat + k / w.toNat)

theorem Sink.read_eq (m : Sink) (x y w h : Coord) :
    m.read x y w h = (List.range (area w h)).map (m.rowMajor x y w) := rfl

theorem Sink.read_length (m : Sink) (x y w h : Coord) : (m.read x y w h).length = area w h := by
  rw [Sink.read_eq, List.length_map, List.length_range]

/-- The transactions of a copy paint the whole destination, each place with the source pixel of its index: all of them
were read before the first push (R246). -/
theorem Sink.applyAll_copy (m : Sink) (sx sy dx dy w h : Coord) :
    m.applyAll ([.readWindow sx sy w h (m.read sx sy w h), .setWindow dx dy w h] ++
      (m.read sx sy w h).map .pushPixel) = m.painted (.ofRect dx dy w h) (m.rowMajor sx sy w) (area w h) := by
  have hopened : m.applyAll [.readWindow sx sy w h (m.read sx sy w h), .setWindow dx dy w h] =
      m.painted (.ofRect dx dy w h) (m.rowMajor sx sy w) 0 := m.apply_setWindow _ dx dy w h
  rw [Sink.applyAll_append, hopened, m.read_eq]
  exact m.painted_pushes _ le_rfl

/-- Settles O50: the sink is painted with what it was read as, whatever the two rectangles share. -/
theorem copyHasSnapshotSemantics : Obligations.CopyHasSnapshotSemantics := by
  intro m s sx sy dx dy w h
  refine ⟨_, congrArg State.out (s.copyRect_eq sx sy dx dy w h (m.read_length sx sy w h)), fun x y => ?_⟩
  rw [m.applyAll_copy]
  show (if (Window.ofRect dx dy w h).Holds x y ∧ _ then m.rowMajor sx sy w _ else _) =
    if (Window.ofRect dx dy w h).Holds x y then _ else _
  by_cases hin : (Window.ofRect dx dy w h).Holds x y
  · rw [if_pos ⟨hin, hin.index_lt⟩, if_pos hin]
    exact congrArg₂ m.pixels (congrArg _ hin.index_mod) (congrArg _ hin.index_div)
  · rw [if_neg (mt And.left hin), if_neg hin]

end Sys2Proof.Machine

/-! # Status (44_status.md): the status packet, the boot step, and what clears DIRTY

Proofs of the statements on R280 to R283 and R286. -/

namespace Sys2Proof.Safety

open Sys2Proof.Machine

/-! ## The status packet (R282, R283) -/

/-- A status packet reports DIRTY and changes nothing else (R282, R284). -/
theorem sendStatus_eq (s : State) :
    s.sendStatus = { s with out := s.out ++ [.statusOut (statusOf s.dirty)] } := by
  rw [State.sendStatus, buildStatus_eq_statusOf]
  rfl

/-- Settles O26: STATUS sends the packet and does nothing else. -/
theorem statusReportsDirty : Obligations.StatusReportsDirty :=
  fun s => congrArg Host.Outcome.next (sendStatus_eq s)

/-- The boot step on a state that still has it before it (R283). -/
theorem step_boot_statusOf {s : State} (hsched : s.sched = []) (hb : s.bootPending = true) :
    step s = .next { s with out := s.out ++ [.statusOut (statusOf s.dirty)], bootPending := false } := by
  rw [step_boot hsched hb, sendStatus_eq]

/-- Settles O27: the reset state is one that has the boot step before it, with DIRTY 1. -/
theorem bootStepSendsTheStartupPacket : Obligations.BootStepSendsTheStartupPacket :=
  ⟨fun _ => step_boot_statusOf, step_boot_statusOf (s := State.reset) rfl rfl⟩

/-! ## DIRTY before a completion (R280): no update of a handler changes it -/

@[simp] theorem latchFrame_dirty (s : State) (frame : List Byte) : (s.latchFrame frame).dirty = s.dirty := by
  cases frame <;> rfl

@[simp] theorem fillRect_dirty (s : State) (l t r b : Coord) (c : Pixel) :
    (s.fillRect l t r b c).dirty = s.dirty := by
  rw [State.fillRect_eq]
  split <;> rfl

@[simp] theorem copyAreaWith_dirty (s : State) (cap : Nat) (answer : Nat → List Pixel) (sx sy dx dy w h : Coord) :
    (s.copyAreaWith cap answer sx sy dx dy w h).dirty = s.dirty := by
  rcases s.copyAreaWith_cases cap answer sx sy dx dy w h with ⟨-, heq⟩ | ⟨-, -, heq⟩ | ⟨-, -, heq⟩ <;> rw [heq] <;> rfl

@[simp] theorem rawByte_dirty (s : State) (d : Byte) : (s.rawByte d).dirty = s.dirty := by
  show (s.pixelByte d).dirty = s.dirty
  rw [State.pixelByte_eq]
  split <;> rfl

/-- A content byte is half a literal pixel, or one of the two colour bytes of a common block (R188 to R190). -/
@[simp] theorem rleContent_dirty (s : State) (d : Byte) : (s.rleContent d).dirty = s.dirty := by
  cases hmode : s.blkCommon
  case false => rw [State.rleContent_literal d hmode, rawByte_dirty]
  case true =>
    by_cases hpos : s.blkPos + 1#5 = s.blkRem - 1#5
    · rw [State.rleContent_colorLo d hmode hpos]
    · rw [State.rleContent_colorHi d hmode hpos]

/-! ## What clears DIRTY (R280, R281, R286) -/

/-- DIRTY stays, or a completion of a command with CLEAR_DIRTY clears it and reports the 0 as the last thing sent. -/
def DirtyRule (s t : State) : Prop :=
  t.dirty = s.dirty ∨
  (s.dirty = true ∧ t.dirty = false ∧ t.hdr.getLsbD 6 = true ∧ t.fsm = .scan ∧
    ∃ ts, t.out = s.out ++ ts ++ [.statusOut (statusOf false)])

/-- The one place that writes DIRTY: a completion clears it by the CLEAR_DIRTY bit of the header byte, and its packet
reports the DIRTY it leaves (R258, R281, R286). -/
theorem dirtyRule_complete {s u : State} (hquiet : Quiet s u) (hdirty : u.dirty = s.dirty) :
    DirtyRule s u.complete := by
  obtain ⟨ts, hout, -⟩ := hquiet.out
  rw [complete_eq_completed, completed, List.append_nil, hout, hdirty]
  cases hclear : clearDirty u.hdr with
  | false => exact .inl (Bool.and_true _)
  | true =>
    rw [Bool.not_true, Bool.and_false]
    cases hs : s.dirty with
    | false => exact .inl hs.symm
    | true => exact .inr ⟨hs, rfl, hclear, rfl, ts, rfl⟩

/-- NOP completes only under NOP_REPORTS (R241). -/
theorem dirtyRule_nopWith {s u : State} (reports : Bool) (hquiet : Quiet s u) (hdirty : u.dirty = s.dirty) :
    DirtyRule s (nopWith reports u) := by
  cases reports
  · exact .inl hdirty
  · exact dirtyRule_complete hquiet hdirty

/-- A BitBlt without pixels completes at its start (R250). -/
theorem dirtyRule_bitBltStart {s u : State} (hquiet : Quiet s u) (hdirty : u.dirty = s.dirty)
    (x y w h : Coord) : DirtyRule s (u.bitBltStart x y w h) := by
  rcases u.bitBltStart_cases x y w h with ⟨-, heq⟩ | ⟨-, heq⟩ <;> rw [heq]
  · exact dirtyRule_complete (hquiet.trans (.of_eq rfl rfl rfl)) hdirty
  · exact .inl hdirty

/-- A payload byte completes its BitBlt only when the load is used up (R154). -/
theorem dirtyRule_finishPayload {s u : State} (hquiet : Quiet s u) (hdirty : u.dirty = s.dirty) :
    DirtyRule s u.finishPayload := by
  rcases u.finishPayload_cases with ⟨-, heq⟩ | ⟨-, heq⟩ <;> rw [heq]
  · exact dirtyRule_complete hquiet hdirty
  · exact .inl hdirty

/-- A pop touches neither DIRTY nor the output ports. -/
theorem dirtyRule_of_withPop {s t : State} {f : State → State}
    (h : withPop s (fun _ u => .next (f u)) = .next t) (hf : ∀ u, DirtyRule u (f u)) :
    DirtyRule s t := by
  obtain ⟨e, -, heq⟩ := withPop_next.1 h
  cases heq
  exact hf s.popped

/-- The six commands end in a completion or leave DIRTY; the other instructions leave it. -/
theorem exec_next_dirty {i : Instr} {s t : State} (h : exec i s = .next t) : DirtyRule s t := by
  unfold exec at h
  cases i with
  | nop clear =>
    exact dirtyRule_of_withPop h fun u =>
      dirtyRule_nopWith _ (quiet_latchFrame u _) (latchFrame_dirty u _)
  | fill clear color =>
    exact dirtyRule_of_withPop h fun u => dirtyRule_complete
      ((quiet_latchFrame u _).trans (.of_emits [.fillScreen color] rfl rfl rfl rfl)) (by simp)
  | rect clear l t r b color =>
    exact dirtyRule_of_withPop h fun u => dirtyRule_complete
      ((quiet_latchFrame u _).trans (quiet_fillRect ..)) (by simp)
  | copyArea clear sx sy dx dy w h' =>
    exact dirtyRule_of_withPop h fun u => dirtyRule_complete
      ((quiet_latchFrame u _).trans (quiet_copyAreaWith _ _ sx sy dx dy w h' u.sinkAnswer_length)) (by simp)
  | bitblt clear x y w h' =>
    exact dirtyRule_of_withPop h fun u =>
      dirtyRule_bitBltStart (quiet_latchFrame u _) (latchFrame_dirty u _) x y w h'
  | bitbltRle clear x y w h' =>
    exact dirtyRule_of_withPop h fun u =>
      dirtyRule_bitBltStart (quiet_latchFrame u _) (latchFrame_dirty u _) x y w h'
  | unknownOpcode06 | unknownOpcode08 | unknownOpcode10 | unknownOpcode20 =>
    exact dirtyRule_of_withPop h fun u => .inl (latchFrame_dirty u _)
  | nonFrame | contBitblt | contBitbltRle | rleLiteral | rleCommon =>
    exact dirtyRule_of_withPop h fun u => .inl rfl
  | status => cases h; exact .inl s.sendStatus_dirty

/-- Of the Engine's steps that complete no instruction of the map, only a payload byte's can complete a command. -/
theorem engineStep_next_dirty {s t : State} (h : engineStep s = .next t) : DirtyRule s t := by
  unfold engineStep at h
  cases hfetch : fetch s <;> rw [hfetch] at h
  case boot => cases h; exact .inl s.sendStatus_dirty
  case wait => cases h; exact .inl rfl
  case stop f => cases h
  case run i => exact exec_next_dirty h
  case accept hd => exact dirtyRule_of_withPop (show acceptStep s hd = _ from h) fun u => .inl rfl
  case argument d =>
    exact dirtyRule_of_withPop (show argumentStep s d = _ from h) fun u => .inl (u.pushArg_dirty d)
  case drop => exact dirtyRule_of_withPop h fun u => .inl rfl
  case resync => cases h; exact .inl rfl
  case desync d => cases h; exact .inl (s.syncError_dirty d)
  case raw d =>
    exact dirtyRule_of_withPop h fun u =>
      dirtyRule_finishPayload (quiet_rawByte u d) (rawByte_dirty u d)
  case content d =>
    exact dirtyRule_of_withPop h fun u =>
      dirtyRule_finishPayload (quiet_rleContent u d) (rleContent_dirty u d)

/-- Settles O41: the Engine clears DIRTY only by a completion, a store leaves it, and a Reset move is shut out. -/
theorem dirtyIsClearedOnlyByACompletion : Obligations.DirtyIsClearedOnlyByACompletion := by
  intro s t hreset hstep
  rcases step_next_cases hstep with ⟨r, -, hengine⟩ | ⟨d, sop, r, -, hstore⟩ | ⟨r, hsched, -⟩
  · have heffect := engineStep_next_dirty hengine
    exact heffect
  · rcases fifoStore_next hstore with ⟨-, rfl⟩ | ⟨-, lost, -, rfl⟩ <;> exact .inl rfl
  · exact absurd hsched (hreset r)

end Sys2Proof.Safety

/-! # Reset and hazards (70_reset_and_hazards.md): abandoning a BitBlt, resynchronization

Proofs of the statements on R356 and R360. -/

namespace Sys2Proof.Safety

open Sys2Proof.Machine

/-! ## A NOP header abandons a BitBlt (R356) -/

theorem opcodeOf_headerByte (op : BitVec 6) (clear : Bool) : opcodeOf (headerByte op clear) = op := by
  rw [headerByte_eq_mkHeader, opcodeOf_mkHeader]

theorem frameStart_headerByte (op : BitVec 6) (clear : Bool) : frameStart (headerByte op clear) = true := by
  rw [headerByte_eq_mkHeader, frameStart_mkHeader]

/-- Under six different opcodes NOP's is that of neither BitBlt (R103, log 20). -/
theorem opcNop_ne_opcBitblts {p : Config.Params} (hvalid : p.valid = true) :
    p.opcNop ≠ p.opcBitblt ∧ p.opcNop ≠ p.opcBitbltRle := by
  obtain ⟨hnop, -⟩ := List.nodup_cons.1 (Config.Params.valid_iff.1 hvalid)
  exact ⟨fun heq => hnop (by simp [heq, Config.Params.withArguments]),
    fun heq => hnop (by simp [heq, Config.Params.withArguments])⟩

/-- A NOP header continues no BitBlt, under either setting of `CONT_MATCH` (R113, R356). -/
theorem not_continues_nop {p : Config.Params} {h : Byte} (clear : Bool) (hvalid : p.valid = true)
    (hop : opcodeOf h = p.opcBitblt ∨ opcodeOf h = p.opcBitbltRle) :
    ¬ Continues p (headerByte p.opcNop clear) h := by
  rintro ⟨hfield, -⟩
  obtain ⟨hblt, hrle⟩ := opcNop_ne_opcBitblts hvalid
  have hnop : p.opcNop = opcodeOf h := (opcodeOf_headerByte p.opcNop clear).symm.trans hfield
  exact hop.elim (fun heq => hblt (hnop.trans heq)) fun heq => hrle (hnop.trans heq)

/-- In SCAN the header byte of a NOP at the head runs the NOP (R151). -/
theorem Ready.step_nopHeader {s : State} {sop clear : Bool}
    (hready : Ready s ⟨headerByte s.params.opcNop clear, sop⟩) (hfsm : s.fsm = .scan) : step s = exec (.nop clear) s := by
  have hfetch := fetchScan_nop (frameStart_headerByte s.params.opcNop clear) (opcodeOf_headerByte _ _)
  have hclear : clearDirty (headerByte s.params.opcNop clear) = clear := by
    rw [headerByte_eq_mkHeader, clearDirty_mkHeader]
  rw [hclear] at hfetch
  exact hready.step_run ((hready.fetch_scan hfsm).trans hfetch)

/-- Settles O49: the synchronization error leaves the byte at the head, and in SCAN it runs as a NOP. -/
theorem nopPacketAbandonsABitBlt : Obligations.NopPacketAbandonsABitBlt := by
  rintro s e hready hvalid hfsm rfl hop
  have herror := mismatchedContinuationByteAborts s _ hready hfsm rfl (not_continues_nop false hvalid hop)
  have haborted : Ready (s.syncError (headerByte s.params.opcNop false)) ⟨headerByte s.params.opcNop false, true⟩ :=
    ⟨hready.sched, hready.booted, hready.head⟩
  rw [← syncError_eq] at herror
  have hnop := (haborted.step_nopHeader rfl).trans (nopTakesItsHeaderByteOnly false _ _ haborted.head)
  rw [syncError_eq] at hnop
  rw [run_succ herror, syncError_eq, run_succ hnop]
  rfl

/-! ## Dropping garbage (R144 to R146, R360) -/

/-- A run goes on from the state an earlier run leaves. -/
theorem run_add {m n : Nat} {s t : State} (h : Host.Core.run Sys2Proof.core m s = .next t) :
    Host.Core.run Sys2Proof.core (m + n) s = Host.Core.run Sys2Proof.core n t := by
  induction m generalizing s with
  | zero => cases h; rw [Nat.zero_add]
  | succ m ih =>
    obtain ⟨u, hstep, hrun⟩ := run_succ_next h
    rw [Nat.succ_add, run_succ hstep, ih hrun]

/-- What neither SCAN nor DISCARD changes while no frame begins. -/
def resyncRegs (s : State) : List Move × Bool × Config.Params × Bool := (s.sched, s.bootPending, s.params, s.dirty)

theorem resyncRegs_eq_iff {s t : State} : resyncRegs t = resyncRegs s ↔
    t.sched = s.sched ∧ t.bootPending = s.bootPending ∧ t.params = s.params ∧ t.dirty = s.dirty := by
  simp [resyncRegs]

/-- The Engine goes from `s` to `t` and sends framing events only (R302). -/
structure Resyncs (s t : State) : Prop where
  reached : ∃ k, Host.Core.run Sys2Proof.core k s = .next t
  kept : resyncRegs t = resyncRegs s
  sent : ∃ ds, t.out = s.out ++ ds ∧ ∀ d ∈ ds, ∃ b, d = .diag 0x01#8 [b]

theorem Resyncs.refl (s : State) : Resyncs s s := ⟨⟨0, rfl⟩, rfl, [], by simp⟩

theorem Resyncs.trans {s t u : State} (hst : Resyncs s t) (htu : Resyncs t u) : Resyncs s u := by
  obtain ⟨⟨j, hj⟩, hkept, ds, hds, hevents⟩ := hst
  obtain ⟨⟨k, hk⟩, hkept', ds', hds', hevents'⟩ := htu
  refine ⟨⟨j + k, (run_add hj).trans hk⟩, hkept'.trans hkept, ds ++ ds', ?_, fun d hd => ?_⟩
  · rw [hds', hds, List.append_assoc]
  · exact (List.mem_append.1 hd).elim (hevents d) (hevents' d)

/-- A step that sends nothing. -/
theorem Resyncs.of_silent_step {s t : State} (h : step s = .next t) (hkept : resyncRegs t = resyncRegs s)
    (hout : t.out = s.out) : Resyncs s t :=
  ⟨⟨1, run_succ h⟩, hkept, [], by simp [hout]⟩

/-- The Engine alone moves, past the boot step, in SCAN or DISCARD: where R360 lets garbage begin. -/
structure Resyncing (s : State) : Prop where
  sched : s.sched = []
  booted : s.bootPending = false
  fsm : s.fsm = .scan ∨ s.fsm = .discard

theorem Resyncing.of_resyncs {s t : State} (h : Resyncing s) (hst : Resyncs s t) (hfsm : t.fsm = .discard) :
    Resyncing t := by
  obtain ⟨hsched, hbooted, -⟩ := resyncRegs_eq_iff.1 hst.kept
  exact ⟨hsched.trans h.sched, hbooted.trans h.booted, .inr hfsm⟩

/-- A packet start at the head is met in SCAN, after a step of DISCARD that leaves it there if need be (R146). -/
theorem Resyncing.to_scan {s : State} {e : FifoEntry} (h : Resyncing s) (hhead : s.fifoHead? = some e)
    (hsop : e.sop = true) : Resyncs s { s with fsm := .scan } := by
  rcases h.fsm with hscan | hdiscard
  · rw [← hscan]
    exact .refl s
  · have hready : Ready s e := ⟨h.sched, h.booted, hhead⟩
    exact .of_silent_step ((discardDropsUpToThePacketStart s e hready hdiscard).2 hsop) rfl rfl

/-- DISCARD drops the bytes up to the next packet start (R145). -/
theorem Resyncing.drop {bs : List Byte} {q : List (Option FifoEntry)} {s : State} (h : Resyncing s)
    (hfsm : s.fsm = .discard) (hfifo : s.fifoContents = (bs.map fun d => some ⟨d, false⟩) ++ q) :
    ∃ t, Resyncs s t ∧ t.fsm = .discard ∧ t.fifoContents = q := by
  induction bs generalizing s with
  | nil => exact ⟨s, .refl s, hfsm, hfifo⟩
  | cons d bs ih =>
    obtain ⟨hhead, htail⟩ := fifoHead?_of_contents hfifo
    have hready : Ready s ⟨d, false⟩ := ⟨h.sched, h.booted, hhead⟩
    have hstep := (discardDropsUpToThePacketStart s _ hready hfsm).1 rfl
    obtain ⟨t, hrest, ht⟩ := ih (s := pop s) ⟨h.sched, h.booted, h.fsm⟩ hfsm htail
    exact ⟨t, (Resyncs.of_silent_step hstep rfl rfl).trans hrest, ht⟩

/-- SCAN takes a byte with bit 7 = 0 as a framing error (R144, R302). -/
theorem Resyncs.nonFrame {s : State} {e : FifoEntry} (hready : Ready s e) (hfsm : s.fsm = .scan)
    (hstart : e.data.getLsbD 7 = false) :
    Resyncs s { pop s with out := s.out ++ [.diag 0x01#8 [e.data]], fsm := .discard } where
  reached := ⟨1, run_succ (nonFrameByteIsRecordedAndDiscarded.2 s e hready hfsm hstart)⟩
  kept := rfl
  sent := ⟨[.diag 0x01#8 [e.data]], rfl, fun _ hd => ⟨e.data, List.mem_singleton.1 hd⟩⟩

/-- A packet that begins with a byte with bit 7 = 0 is dropped whole, its first byte as a framing error (R144, R145). -/
theorem Resyncing.drop_packet {b : Byte} {bs : List Byte} {q : List (Option FifoEntry)} {s : State} (h : Resyncing s)
    (hstart : b.getLsbD 7 = false) (hfifo : s.fifoContents = (packetEntries (b :: bs)).map some ++ q) :
    ∃ t, Resyncs s t ∧ t.fsm = .discard ∧ t.fifoContents = q := by
  rw [packetEntries, List.map_cons, List.map_map] at hfifo
  obtain ⟨hhead, htail⟩ := fifoHead?_of_contents hfifo
  have herror : Resyncs { s with fsm := .scan } _ := .nonFrame ⟨h.sched, h.booted, hhead⟩ rfl hstart
  have hbegun := (h.to_scan hhead rfl).trans herror
  obtain ⟨t, hrest, ht⟩ := (h.of_resyncs hbegun rfl).drop rfl htail
  exact ⟨t, hbegun.trans hrest, ht⟩

/-- Garbage packets are dropped one after the other. -/
theorem Resyncing.drop_packets {garbage : List (List Byte)} {q : List (Option FifoEntry)} {s : State}
    (h : Resyncing s) (hgarbage : ∀ g ∈ garbage, ∃ b bs, g = b :: bs ∧ b.getLsbD 7 = false)
    (hfifo : s.fifoContents = (garbage.flatMap packetEntries).map some ++ q) :
    ∃ t, Resyncs s t ∧ Resyncing t ∧ t.fifoContents = q := by
  induction garbage generalizing s with
  | nil => exact ⟨s, .refl s, h, hfifo⟩
  | cons g garbage ih =>
    obtain ⟨⟨b, bs, rfl, hstart⟩, hrest⟩ := List.forall_mem_cons.1 hgarbage
    rw [List.flatMap_cons, List.map_append, List.append_assoc] at hfifo
    obtain ⟨u, hsu, hfsm, hcontents⟩ := h.drop_packet hstart hfifo
    obtain ⟨t, hut, ht⟩ := ih (h.of_resyncs hsu hfsm) hrest hcontents
    exact ⟨t, hsu.trans hut, ht⟩

/-! ## The FILL after the garbage (R105, R143, R147, R242) -/

/-- `s` after SCAN has taken the header byte `h` (R143). -/
def headerTaken (s : State) (h : Byte) : State := { received s h s.args 0#4 with fsm := .header }

/-- `s` after HEADER has taken `d` as the first argument byte (R147). -/
def firstTaken (s : State) (d : Byte) : State := received s s.hdr (s.args.setIfInBounds 0 d) 1#4

theorem frameBytes_firstTaken (s : State) (d d' : Byte) : (firstTaken s d).frameBytes d' = [s.hdr, d, d'] := by
  have hfirst : (s.args.setIfInBounds 0 d).toList.take 1 = [d] := by
    rw [List.take_one, Vector.toList_setIfInBounds, List.head?_eq_getElem?, List.getElem?_set_self (by simp)]
    rfl
  exact congrArg (fun as => s.hdr :: (as ++ [d'])) hfirst

theorem step_headerTaken {s : State} {clear sop : Bool} (hready : Ready s ⟨headerByte s.params.opcFill clear, sop⟩)
    (hvalid : s.params.valid = true) (hfsm : s.fsm = .scan) :
    step s = .next (headerTaken s (headerByte s.params.opcFill clear)) := by
  have hop : opcodeOf (headerByte s.params.opcFill clear) ∈ s.params.withArguments := by
    rw [opcodeOf_headerByte]
    exact List.mem_cons_self
  exact headerByteWithArgumentsIsAccepted s _ hready hvalid hfsm (frameStart_headerByte _ _) hop

section

variable {s : State} {e : FifoEntry} {clear : Bool} {color : Pixel}

theorem step_firstTaken (hready : Ready s e) (hvalid : s.params.valid = true) (hfsm : s.fsm = .header)
    (hhdr : s.hdr = headerByte s.params.opcFill clear) (hcnt : s.argcnt = 0#4) :
    step s = .next (firstTaken s e.data) := by
  have hneed : need s.params (opcodeOf s.hdr) = 2 := by
    rw [hhdr, opcodeOf_headerByte]
    exact (need_opcodes hvalid).2.1
  have hstart : frameStart s.hdr = true := by rw [hhdr, frameStart_headerByte]
  have hmore : s.argcnt.toNat + 1 < need s.params (opcodeOf s.hdr) := by
    rw [hneed, hcnt]
    decide
  have hstep := argumentByteIsAppended s e hready hfsm hstart hmore
  rwa [hcnt] at hstep

/-- The bytes of a FILL, once whole, run it (R152, R242). -/
theorem step_fill (hready : Ready s e) (hvalid : s.params.valid = true) (hfsm : s.fsm = .header)
    (hframe : s.frameBytes e.data = [headerByte s.params.opcFill clear, lo color, hi color]) :
    step s = .next (completed
      (received s (headerByte s.params.opcFill clear) ((s.args.set 0 (lo color)).set 1 (hi color)) 2#4) clear
      [.fillScreen color]) := by
  have hencode : s.frameBytes e.data = encode s.params (.fill clear color) ++ [] := by
    rw [hframe, encode, fieldBytes_eq, headerByte_eq_mkHeader]
    rfl
  have hdecode := decodeUndoesEncode s.params (.fill clear color) .scan [] hvalid rfl rfl
  rw [← hencode] at hdecode
  obtain ⟨-, hdispatch, -⟩ := stepRunsTheDecodedInstruction.1 s e (.fill clear color) hready rfl
  exact (hdispatch hfsm hdecode).trans (fillPaintsThePanelAndCompletes clear color s e hready.head)

/-- Three steps from SCAN take the three bytes of a FILL and run it. -/
theorem run_fillPacket {q : List (Option FifoEntry)} (hsched : s.sched = []) (hb : s.bootPending = false)
    (hvalid : s.params.valid = true) (hfsm : s.fsm = .scan) (hfifo : s.fifoContents =
      (packetEntries [headerByte s.params.opcFill clear, lo color, hi color]).map some ++ q) :
    ∃ t, Host.Core.run Sys2Proof.core 3 s = .next t ∧ t.fifoContents = q ∧ t.fsm = .scan ∧
      t.dirty = (s.dirty && !clear) ∧
      t.out = s.out ++ [.fillScreen color, .statusOut (statusOf (s.dirty && !clear))] := by
  obtain ⟨hhead, hfifo⟩ := fifoHead?_of_contents hfifo
  have hheader := step_headerTaken ⟨hsched, hb, hhead⟩ hvalid hfsm
  obtain ⟨hhead, hfifo⟩ := fifoHead?_of_contents hfifo
  have hfirst := step_firstTaken (s := headerTaken s (headerByte s.params.opcFill clear)) ⟨hsched, hb, hhead⟩ hvalid
    rfl rfl rfl
  obtain ⟨hhead, hfifo⟩ := fifoHead?_of_contents hfifo
  have hlast := step_fill (s := firstTaken (headerTaken s (headerByte s.params.opcFill clear)) (lo color))
    ⟨hsched, hb, hhead⟩ hvalid rfl (frameBytes_firstTaken _ _ _)
  exact ⟨_, (run_succ hheader).trans ((run_succ hfirst).trans (run_succ hlast)), hfifo, rfl, rfl,
    List.append_assoc ..⟩

end

/-- Settles O48: the garbage is dropped packet by packet, and the FILL's packet start is met in SCAN. -/
theorem garbagePacketsThenFillAppliesExactlyTheFill : Obligations.GarbagePacketsThenFillAppliesExactlyTheFill := by
  intro s garbage clear color hsched hb hvalid hfsm hgarbage hfifo
  rw [List.map_append] at hfifo
  obtain ⟨u, hsu, hu, hcontents⟩ := Resyncing.drop_packets ⟨hsched, hb, hfsm⟩ hgarbage hfifo
  have hscan := hsu.trans (hu.to_scan (fifoHead?_of_contents hcontents).1 rfl)
  obtain ⟨⟨k, hrun⟩, hkept, ds, hds, hevents⟩ := hscan
  obtain ⟨-, -, hparams, hdirty⟩ := resyncRegs_eq_iff.1 hkept
  rw [← hparams] at hcontents hvalid
  obtain ⟨t, hfill, hempty, htfsm, htdirty, htout⟩ :=
    run_fillPacket (s := { u with fsm := .scan }) (q := []) hu.sched hu.booted hvalid rfl
      (hcontents.trans (List.append_nil _).symm)
  rw [hdirty] at htdirty htout
  rw [hds] at htout
  exact ⟨k + 3, t, (run_add hrun).trans hfill, hempty, htfsm, htdirty, ds, htout, hevents⟩

end Sys2Proof.Safety
